-- ==== Sys2Proof/Word.lean ====
section
/-! DEFINITION. The two word types of the encoder: the byte and the 32-bit command word (spec 00_scope.md R14). -/

namespace Sys2Proof

/-- R14: a byte (`u8`) is a number 0..255. -/
abbrev Byte := BitVec 8

/-- R14, R64: a command word (`u32`). -/
abbrev CmdWord := BitVec 32

end Sys2Proof
end

