-- ==== Sys2Proof/Config.lean ====
section
/-! DEFINITION. What is fixed for one encoder and its environment (R10, R11, R31), and the constants the spec leaves
open: these are opaque, so no proof can read a value of them. -/

namespace Sys2Proof

/-- The character format on the serial line (R50). -/
structure CharFormat where
  dataBits    : Nat
  parity      : Bool
  stopBits    : Nat
  flowControl : Bool
  deriving DecidableEq, Repr

/-- What `OpenPort()` asks of PLATFORM: to open PORT_ID at BAUD_RATE with the character format of R50 (R120). -/
structure OpenRequest where
  port   : String
  baud   : Nat
  format : CharFormat
  deriving DecidableEq, Repr

namespace Config

/-- R11, D14: BAUD_RATE. No rule of the encoder's behaviour depends on it. -/
def baudRate : Nat := 57600

/-- R11, D15: PORT_ID is an OPEN parameter, an opaque name. DESIGN CHOICE, notes/assumptions/15.md. -/
opaque portId : String

/-- R50: 8 data bits, no parity; one stop bit and no flow control are the spec's decision D13. -/
def charFormat : CharFormat := { dataBits := 8, parity := false, stopBits := 1, flowControl := false }

/-- R120: the one request OPEN makes of PLATFORM. -/
def openRequest : OpenRequest := { port := portId, baud := baudRate, format := charFormat }

/-- R11, D27: DIP_MAP is an OPEN parameter, a bijection from the 8 switch positions to the 8 bits of the address
byte. DESIGN CHOICE, notes/assumptions/12.md. -/
opaque dipMap : Equiv.Perm (Fin 8)

/-- R143: the data field of a refresh-only frame. The source does not say how many bytes it has, and a model that needs a
concrete frame "must take it as an open parameter". DESIGN CHOICE, notes/assumptions/14.md. -/
opaque refreshOnlyData : List Byte

/-- R35: TOP_ADDR after power-on is "unspecified; any value of 0x00..0xFF". DESIGN CHOICE, notes/assumptions/6.md. -/
opaque powerOnTopAddr : Byte

/-- R35: BOTTOM_ADDR after power-on, in the same way. DESIGN CHOICE, notes/assumptions/6.md. -/
opaque powerOnBottomAddr : Byte

/-- The dip switches of the top panel (R2, R18, R144). DESIGN CHOICE, notes/assumptions/12.md. -/
opaque topPanelSwitches : Vector Bool 8

/-- The dip switches of the bottom panel (R2, R18, R144). DESIGN CHOICE, notes/assumptions/12.md. -/
opaque bottomPanelSwitches : Vector Bool 8

end Config

end Sys2Proof
end

