-- ==== Sys2Proof/Syntax.lean ====
section
/-! DEFINITION. Commands, their operands, wire frames, and the instructions: one constructor of `Instr` for each row of
spec/opcode_table.json. -/

namespace Sys2Proof

/-- R62: a pixel operand, a rectangle of natural numbers with a declared shape. The cells are held as rows of values,
so that the operand is plain data; a cell that is not listed is 0 (notes/assumptions/13.md). -/
structure PixelOperand where
  rows  : Nat
  cols  : Nat
  cells : List (List Nat)
  deriving DecidableEq, Repr

/-- R62: "the operand 0×0 is what a command carries when it has no pixel buffer". -/
def PixelOperand.absent : PixelOperand := { rows := 0, cols := 0, cells := [] }

/-- R60: the record the HOST presents on the command port. -/
structure Command where
  word : CmdWord
  pix  : PixelOperand
  raw  : List Byte
  deriving DecidableEq, Repr

/-- R72, R140: the three mode bytes the source names. -/
inductive FrameMode
  | refresh        -- 0x82, refresh-only
  | dataRefresh    -- 0x83, data+refresh
  | dataNoRefresh  -- 0x84, data+no-refresh
  deriving DecidableEq, Repr

/-- R70: a wire frame less its fixed header and terminator. -/
structure Frame where
  mode : FrameMode
  addr : Byte
  data : List Byte
  deriving DecidableEq, Repr

/-- The instructions: the six commands the ENCODER runs, with the operands their rules read (R66, R100 to R130), and
the three wire frames the PANELS receive (R140 to R143). -/
inductive Instr
  | openLink (top bottom : Byte)                            -- OPEN (R120)
  | closeLink                                               -- CLOSE (R124)
  | paintSingle (addr : Byte) (pix : PixelOperand)          -- PAINT_SINGLE (R100)
  | paintDual (top bottom : Byte) (pix : PixelOperand)      -- PAINT_DUAL (R104)
  | paintDualDefault (pix : PixelOperand)                   -- PAINT_DUAL_DEFAULT (R108)
  | sendRaw (raw : List Byte)                               -- SEND_RAW (R127)
  | frameRefresh (addr : Byte) (data : List Byte)           -- FRAME_REFRESH (R143)
  | frameDataRefresh (addr : Byte) (data : List Byte)       -- FRAME_DATA_REFRESH (R141)
  | frameDataNoRefresh (addr : Byte) (data : List Byte)     -- FRAME_DATA_NOREFRESH (R142)
  deriving DecidableEq, Repr

/-- What an instruction looks like from outside: a command record on the command port (R60), or the bytes of a frame on
the link (R70). -/
inductive Encoded
  | command (c : Command)
  | frame (bytes : List Byte)
  deriving DecidableEq, Repr

end Sys2Proof
end

