-- ==== Sys2Proof/WellFormed.lean ====
section
/-! DEFINITION. Well-formedness of operands and instructions: the plain-data pixel operand lists exactly the cells its
declared shape has (R62). Every other operand is well-formed by its type (R42, R63, R67). -/

namespace Sys2Proof

/-- The listed cells are exactly those of the declared shape (R62; notes/assumptions/13.md). It says nothing about
whether VALIDATE passes: a wrong shape or a cell value of 2 is well-formed and is rejected by its command (R83). -/
def PixelOperand.wf (P : PixelOperand) : Bool :=
  P.cells.length == P.rows && P.cells.all fun row => row.length == P.cols

/-- An instruction is well-formed when its pixel operand is. -/
def Instr.wf : Instr → Bool
  | .openLink _ _           => true
  | .closeLink              => true
  | .paintSingle _ P        => P.wf
  | .paintDual _ _ P        => P.wf
  | .paintDualDefault P     => P.wf
  | .sendRaw _              => true
  | .frameRefresh _ _       => true
  | .frameDataRefresh _ _   => true
  | .frameDataNoRefresh _ _ => true

end Sys2Proof
end

