-- ==== Sys2Proof/Decode.lean ====
section
/-! DEFINITION. Decoding of command words (R64 to R69) and of wire frames (R70 to R73), total, with named rejections;
the encoder, from the same tables; the opcode map as match and mask rows (R66). -/

namespace Sys2Proof

/-- Why a word or a byte sequence is no instruction. The first three are R69's reasons for ILLEGAL; the rest are the
ways bytes fail to have the layout of R70 or one of the three modes of R72. -/
inductive DecodeProblem
  | reservedBits        -- RSV ≠ 0 (R69)
  | reservedOpcode      -- an opcode outside the map (R69)
  | nonzeroField        -- a field its row requires to be 0 (R69)
  | tooShort            -- fewer than header, mode, address and terminator (R71)
  | badHeader           -- byte 0 is not 0x80 (R70)
  | badTerminator       -- the last byte is not 0x8F (R70)
  | unknownMode         -- a mode byte other than 0x82, 0x83, 0x84 (R73)
  deriving DecidableEq, Repr

/-! ### Fields of the command word (R65) -/

def opField  (w : CmdWord) : Byte := w.extractLsb' 24 8
def dField   (w : CmdWord) : BitVec 1 := w.extractLsb' 23 1
def rsvField (w : CmdWord) : BitVec 7 := w.extractLsb' 16 7
def bField   (w : CmdWord) : Byte := w.extractLsb' 8 8
def aField   (w : CmdWord) : Byte := w.extractLsb' 0 8

/-- R65: a command word from its fields. -/
def packFields (op : Byte) (d : BitVec 1) (rsv : BitVec 7) (b a : Byte) : CmdWord :=
  op ++ d ++ rsv ++ b ++ a

/-! ### The opcodes (R66) -/

def opOpen : Byte := 0x01
def opClose : Byte := 0x02
def opPaintSingle : Byte := 0x10
def opPaintDual : Byte := 0x11
def opSendRaw : Byte := 0x20

/-- R68: `DECODE`, with the bulk operands of R60 handed to the commands that read them. -/
def decodeCommand (c : Command) : Except DecodeProblem Instr :=
  let op := opField c.word
  let d := dField c.word
  let b := bField c.word
  let a := aField c.word
  if rsvField c.word ≠ 0 then .error .reservedBits
  else if op = opOpen then
    if d = 0 then .ok (.openLink a b) else .error .nonzeroField
  else if op = opClose then
    if d = 0 ∧ b = 0 ∧ a = 0 then .ok .closeLink else .error .nonzeroField
  else if op = opPaintSingle then
    if d = 0 ∧ b = 0 then .ok (.paintSingle a c.pix) else .error .nonzeroField
  else if op = opPaintDual then
    if d = 0 then .ok (.paintDual a b c.pix)
    else if b = 0 ∧ a = 0 then .ok (.paintDualDefault c.pix)
    else .error .nonzeroField
  else if op = opSendRaw then
    if d = 0 ∧ b = 0 ∧ a = 0 then .ok (.sendRaw c.raw) else .error .nonzeroField
  else .error .reservedOpcode

/-! ### Wire frames (R70 to R73) -/

/-- R70: byte 0 of every frame. -/
def frameHeader : Byte := 0x80

/-- R70: the last byte of every frame. -/
def frameTerminator : Byte := 0x8F

/-- R72: the mode byte. -/
def FrameMode.byte : FrameMode → Byte
  | .refresh       => 0x82
  | .dataRefresh   => 0x83
  | .dataNoRefresh => 0x84

/-- R72, R73: the mode a byte names, none for any other byte. -/
def FrameMode.ofByte? (m : Byte) : Option FrameMode :=
  if m = FrameMode.refresh.byte then some .refresh
  else if m = FrameMode.dataRefresh.byte then some .dataRefresh
  else if m = FrameMode.dataNoRefresh.byte then some .dataNoRefresh
  else none

/-- R70: the bytes of a frame, for any mode byte, address and data. -/
def frameBytes (mode addr : Byte) (data : List Byte) : List Byte :=
  [frameHeader, mode, addr] ++ data ++ [frameTerminator]

/-- R140: the instruction a frame is. -/
def Frame.instr (f : Frame) : Instr :=
  match f.mode with
  | .refresh       => .frameRefresh f.addr f.data
  | .dataRefresh   => .frameDataRefresh f.addr f.data
  | .dataNoRefresh => .frameDataNoRefresh f.addr f.data

/-- R72, R73, R140: the instruction that a frame's mode byte, address and data make. -/
def decodeParts (m a : Byte) (data : List Byte) : Except DecodeProblem Instr :=
  match FrameMode.ofByte? m with
  | none => .error .unknownMode
  | some mode => .ok (Frame.instr { mode := mode, addr := a, data := data })

/-- R70, R140: reads one whole frame: header, a mode of R72, address, data, terminator, and nothing else. -/
def decodeFrame (bytes : List Byte) : Except DecodeProblem Instr :=
  match bytes with
  | h :: m :: a :: rest =>
    if h ≠ frameHeader then .error .badHeader
    else match rest.getLast? with
      | none => .error .tooShort
      | some z =>
        if z ≠ frameTerminator then .error .badTerminator
        else decodeParts m a rest.dropLast
  | _ => .error .tooShort

/-- The one decoder, over what an instruction looks like from outside. -/
def decode : Encoded → Except DecodeProblem Instr
  | .command c => decodeCommand c
  | .frame bytes => decodeFrame bytes

/-! ### The encoder -/

/-- R66, R75: the command record of a command, with the absent operands of R75 (0×0 and []) where it reads none, and
the bytes of a frame (R70). -/
def encode : Instr → Encoded
  | .openLink top bottom =>
    .command { word := packFields opOpen 0 0 bottom top, pix := .absent, raw := [] }
  | .closeLink =>
    .command { word := packFields opClose 0 0 0 0, pix := .absent, raw := [] }
  | .paintSingle addr P =>
    .command { word := packFields opPaintSingle 0 0 0 addr, pix := P, raw := [] }
  | .paintDual top bottom P =>
    .command { word := packFields opPaintDual 0 0 bottom top, pix := P, raw := [] }
  | .paintDualDefault P =>
    .command { word := packFields opPaintDual 1 0 0 0, pix := P, raw := [] }
  | .sendRaw raw =>
    .command { word := packFields opSendRaw 0 0 0 0, pix := .absent, raw := raw }
  | .frameRefresh addr data => .frame (frameBytes FrameMode.refresh.byte addr data)
  | .frameDataRefresh addr data => .frame (frameBytes FrameMode.dataRefresh.byte addr data)
  | .frameDataNoRefresh addr data => .frame (frameBytes FrameMode.dataNoRefresh.byte addr data)

/-! ### The opcode map as match and mask (R66) -/

/-- One row of R66's second table: a word is the row's command when `word &&& mask = pattern`. -/
structure OpcodeRow where
  mnemonic : String
  pattern  : CmdWord
  mask     : CmdWord
  deriving DecidableEq, Repr

/-- R66: a word meets a row. -/
def OpcodeRow.matches (r : OpcodeRow) (w : CmdWord) : Bool := w &&& r.mask == r.pattern

/-- R66: the six rows. -/
def opcodeMap : List OpcodeRow :=
  [ { mnemonic := "OPEN",               pattern := 0x01000000, mask := 0xFFFF0000 },
    { mnemonic := "CLOSE",              pattern := 0x02000000, mask := 0xFFFFFFFF },
    { mnemonic := "PAINT_SINGLE",       pattern := 0x10000000, mask := 0xFFFFFF00 },
    { mnemonic := "PAINT_DUAL",         pattern := 0x11000000, mask := 0xFFFF0000 },
    { mnemonic := "PAINT_DUAL_DEFAULT", pattern := 0x11800000, mask := 0xFFFFFFFF },
    { mnemonic := "SEND_RAW",           pattern := 0x20000000, mask := 0xFFFFFFFF } ]

/-- The mnemonic spec/opcode_table.json gives an instruction. -/
def Instr.mnemonic : Instr → String
  | .openLink _ _           => "OPEN"
  | .closeLink              => "CLOSE"
  | .paintSingle _ _        => "PAINT_SINGLE"
  | .paintDual _ _ _        => "PAINT_DUAL"
  | .paintDualDefault _     => "PAINT_DUAL_DEFAULT"
  | .sendRaw _              => "SEND_RAW"
  | .frameRefresh _ _       => "FRAME_REFRESH"
  | .frameDataRefresh _ _   => "FRAME_DATA_REFRESH"
  | .frameDataNoRefresh _ _ => "FRAME_DATA_NOREFRESH"

/-! ### Words numbered as spec/opcode_table.json numbers them -/

/-- The data field of the frame that stands for a row of the table, by its mode byte: the open parameter for a
refresh-only frame (R143), 28 zero bytes for the others ("N=28 for standard frames"; notes/assumptions/14.md). -/
def tableData (m : Byte) : List Byte :=
  if m = FrameMode.refresh.byte then Config.refreshOnlyData else List.replicate 28 0

/-- What the table's bits stand for (notes/assumptions/14.md): a row of 8 bits is a wire frame, named by its mode byte,
with the address byte 0; any longer row is a command word, with the operands of `.word` in R75 (0×0 and []). -/
def tableEncoded (nbits w : Nat) : Encoded :=
  if nbits ≤ 8 then .frame (frameBytes (BitVec.ofNat 8 w) 0 (tableData (BitVec.ofNat 8 w)))
  else .command { word := BitVec.ofNat 32 w, pix := .absent, raw := [] }

/-- The instruction the decoder reads from a word of the opcode table: `decode` of `tableEncoded`
(Laws/Decode.lean, decodeTableWord_eq). A table frame's header and terminator are in place by construction, so its parts
are decoded at once, which evaluates although the data field of a refresh-only frame has no known length. -/
def decodeTableWord (nbits w : Nat) : Option Instr :=
  if nbits ≤ 8 then (decodeParts (BitVec.ofNat 8 w) 0 (tableData (BitVec.ofNat 8 w))).toOption
  else (decodeCommand { word := BitVec.ofNat 32 w, pix := .absent, raw := [] }).toOption

end Sys2Proof
end

