-- ==== Sys2Proof/Machine/State.lean ====
section
/-! DEFINITION. The state: R20's record of the encoder, and beside it the environment's side of its ports. -/

namespace Sys2Proof.Machine

/-- R22: LINK_STATE. -/
inductive LinkState
  | closed
  | opened
  deriving DecidableEq, Repr

/-- R25, R160: the result codes; 8..255 are never written (notes/assumptions/16.md). -/
inductive Code
  | ok
  | connection
  | shape
  | valueDomain
  | io
  | notOpen
  | alreadyOpen
  | illegalCommand
  deriving DecidableEq, Repr

/-- R28: one record per `TxWrite`. -/
structure WriteRecord where
  requested : List Byte
  emitted   : Nat
  ok        : Bool
  deriving DecidableEq, Repr

/-- R44: LINK's answer to a write: all of it taken, or a failure after some leading bytes. -/
inductive LinkAnswer
  | done
  | fail (k : Nat)
  deriving DecidableEq, Repr

/-- R120, R122: PLATFORM's answer to the request to open the port. -/
inductive PortAnswer
  | ok
  | fail
  deriving DecidableEq, Repr

/-- What an IO failure does to the link: nothing (R168), or, in OPEN's blank paint, release it (R121). -/
inductive OnFail
  | keepLink
  | releaseLink
  deriving DecidableEq, Repr

/-- The command in progress while PHASE is BUSY (R29, R30): OPEN waiting for PLATFORM, or a command whose first listed
write waits for LINK's answer, with the writes still to make after it. -/
inductive Progress
  | opening (request : OpenRequest)
  | writing (onFail : OnFail) (frames : List (List Byte))
  deriving DecidableEq, Repr

/-- R29: PHASE. The operands of a command exist only while it runs (R30), so they stand inside BUSY. -/
inductive Phase
  | idle
  | busy (p : Progress)
  deriving DecidableEq, Repr

/-- The bytes of one write on their way to the panels (R56): all of a write that LINK answered `Done`, or the leading
bytes that a failed write emitted. After IO a panel does not have the frame of the failed write (R200), so the two are
told apart (notes/assumptions/9.md, 24.md). -/
inductive Sent
  | whole (bytes : List Byte)
  | cut (bytes : List Byte)
  deriving DecidableEq, Repr

/-- What reached a panel (R144, R147): a whole frame with an address the panel accepts, or bytes in
which no frame can be told. -/
inductive Heard
  | frame (f : Frame)
  | stray (bytes : List Byte)
  deriving DecidableEq, Repr

/-- A panel at the boundary: its 8 dip switches (R18) and what reached it since power-on, oldest first. Its dots are
not state (R34; notes/assumptions/10.md). -/
structure Panel where
  switches : Vector Bool 8
  heard    : List Heard
  deriving DecidableEq, Repr

/-- The machine's state. The first seven fields are R20's EncoderState. The rest is the model's own: the environment's
side of the command port, of LINK, of PLATFORM and of the panels. -/
structure State where
  phase       : Phase               -- PHASE (R29)
  linkState   : LinkState           -- LINK_STATE (R22)
  topAddr     : Byte                -- TOP_ADDR (R23)
  bottomAddr  : Byte                -- BOTTOM_ADDR (R24)
  status      : Code                -- STATUS (R25)
  wire        : List Byte           -- WIRE (R27)
  writeLog    : List WriteRecord    -- WRITE_LOG (R28)
  responses   : List Code           -- responses the HOST has received, oldest first (R61, R166)
  commands    : List Command        -- commands the HOST has still to present, next one first (R21, R61)
  linkAnswers : List LinkAnswer     -- LINK's answers to the coming writes; [] is "not answered" (R44, R46)
  portAnswers : List PortAnswer     -- PLATFORM's answers to the coming opens; [] is "not answered" (R122)
  transit     : List Sent           -- bytes on the link, by write, that have not yet reached the panels (R56)
  panels      : List Panel          -- the receivers (R13, R144, R175)
  deriving DecidableEq, Repr

/-- The reasons the machine could stop with a fault. There is none: every cause the spec names is a result code that
ends a command and leaves the block ready for the next (R161, R166, R167), and a hang is a wait (R46, R178). -/
inductive Fault
  deriving DecidableEq, Repr

/-- The reasons a step could give an instruction no meaning. -/
inductive Refusal
  /-- Raised by an arm of `exec` whose instruction has no meaning yet; no arm does. Safe: the machine stops where the
  hardware goes on. -/
  | notModelled (mnemonic : String)
  deriving DecidableEq, Repr

/-- R35, R190: the state after power-on, for any values of the two unspecified address registers and any panels. The
environment has done nothing yet. -/
def State.powerOn (top bottom : Byte) (panels : List Panel) : State :=
  { phase := .idle, linkState := .closed, topAddr := top, bottomAddr := bottom, status := .ok
    wire := [], writeLog := []
    responses := [], commands := [], linkAnswers := [], portAnswers := [], transit := [], panels := panels }

/-- The machine right after power-on (R35, R190). The two addresses and the switches of the two panels (R2) are opaque:
DESIGN CHOICE, notes/assumptions/6.md and 12.md. -/
def State.reset : State :=
  State.powerOn Config.powerOnTopAddr Config.powerOnBottomAddr
    [ { switches := Config.topPanelSwitches, heard := [] },
      { switches := Config.bottomPanelSwitches, heard := [] } ]

end Sys2Proof.Machine
end

