-- ==== Sys2Proof/Machine/Panels.lean ====
section
/-! DEFINITION. The panel boundary (43_wire_frames.md): which frames a panel accepts, what reaches it, and what a
standard frame asks of it. Nothing here gives a panel dots (R34), and nothing gives a frame of R147 an effect. -/

namespace Sys2Proof

/-- A byte from its bits. -/
def byteOfBits (f : Fin 8 → Bool) : Byte :=
  BitVec.ofNat 8 ((List.finRange 8).map fun j => (f j).toNat * 2 ^ j.val).sum

/-- R144: `DIP_VALUE`, the byte DIP_MAP makes of the switches: switch position `i` is bit `DIP_MAP i`. -/
def dipValue (switches : Vector Bool 8) : Byte := byteOfBits fun j => switches.get (Config.dipMap.symm j)

/-- The switch setting whose DIP_VALUE is `v`: how an installer sets a panel's address (R193). -/
def switchesFor (v : Byte) : Vector Bool 8 := Vector.ofFn fun i => v.getLsbD (Config.dipMap i)

/-- R40, R53: the address that broadcasts to all panels. -/
def broadcast : Byte := 0xFF

/-- R74: no data byte has bit 7 set, so that no header, mode byte or terminator stands among the data and a receiver can
tell where the frame ends. -/
def Frame.clear (f : Frame) : Bool := f.data.all fun d => !d.getLsbD 7

/-- R70: the bytes of a frame. -/
def Frame.bytes (f : Frame) : List Byte := frameBytes f.mode.byte f.addr f.data

/-- R146, R147: the frames whose request is settled: data+refresh, 28 data bytes, bit 7 of each 0. -/
def Frame.settled (f : Frame) : Bool := f.mode == .dataRefresh && f.data.length == 28 && f.clear

/-- R145, R146: the dot a frame asks an accepting panel to show at row `k`, column `c`; none where R147 leaves it open
or there is no such dot. -/
def Frame.asks (f : Frame) (k c : Nat) : Option Bool :=
  if f.settled && decide (k < 7) && decide (c < 28) then some ((f.data.getD c 0).getLsbD k) else none

namespace Machine

/-- R144: `ACCEPTS(panel, addr)`. -/
def Panel.accepts (p : Panel) (addr : Byte) : Bool := addr == broadcast || addr == dipValue p.switches

/-- R147, R204: bytes in which no frame can be told reach every panel; what a panel makes of them is left open
(notes/assumptions/11.md). -/
def Panel.hearStray (b : List Byte) (p : Panel) : Panel := { p with heard := p.heard ++ [.stray b] }

/-- R144: a whole frame reaches the panels that accept its address and no other. With a data byte above 0x7F it is left
open which frames a panel finds in the bytes (R74, R147), so they reach every panel as stray bytes
(notes/assumptions/11.md). -/
def Panel.hear (f : Frame) (p : Panel) : Panel :=
  if f.clear then
    if p.accepts f.addr then { p with heard := p.heard ++ [.frame f] } else p
  else p.hearStray f.bytes

/-- The panels' step for a whole frame. -/
def receiveFrame (f : Frame) (s : State) : State := { s with panels := s.panels.map (Panel.hear f) }

/-- The panels' step for bytes that are no frame. -/
def receiveStray (b : List Byte) (s : State) : State := { s with panels := s.panels.map (Panel.hearStray b) }

/-- Bytes that are no frame. -/
def Heard.isStray : Heard → Bool
  | .frame _ => false
  | .stray _ => true

/-- R146, R149: what the last frame that reached a panel asks of it, none if stray bytes ever reached it: the source
does not say whether a panel finds the next frame after them (R147, R204; notes/assumptions/10.md). -/
def Panel.asked (p : Panel) (k c : Nat) : Option Bool :=
  if p.heard.any Heard.isStray then none
  else match p.heard.getLast? with
    | some (.frame f) => f.asks k c
    | _ => none

end Machine

end Sys2Proof
end

