-- ==== Sys2Proof/Machine/Frames.lean ====
section
/-! DEFINITION. The wire frames (43_wire_frames.md R140 to R143): the panels' reception of one whole frame. What a frame
asks of the panel that accepts it is `Frame.asks`; for refresh-only and data+no-refresh frames R147 leaves that open,
and the reception itself (R144) is all the spec gives (notes/assumptions/8.md, 10.md). -/

namespace Sys2Proof.Machine

/-- R143, R144: FRAME_REFRESH reaches the panels that accept its address. -/
def execFrameRefresh (addr : Byte) (data : List Byte) (s : State) : Host.Outcome State Fault Refusal :=
  .next (receiveFrame { mode := .refresh, addr := addr, data := data } s)

/-- R141, R144: FRAME_DATA_REFRESH reaches the panels that accept its address. -/
def execFrameDataRefresh (addr : Byte) (data : List Byte) (s : State) : Host.Outcome State Fault Refusal :=
  .next (receiveFrame { mode := .dataRefresh, addr := addr, data := data } s)

/-- R142, R144: FRAME_DATA_NOREFRESH reaches the panels that accept its address. -/
def execFrameDataNoRefresh (addr : Byte) (data : List Byte) (s : State) : Host.Outcome State Fault Refusal :=
  .next (receiveFrame { mode := .dataNoRefresh, addr := addr, data := data } s)

end Sys2Proof.Machine
end

