-- ==== Sys2Proof/Machine/Flags.lean ====
section
/-! DEFINITION. The block has no flags beyond STATUS (R26). This file holds STATUS's bits: the numeric codes of R25 and
R160. -/

namespace Sys2Proof.Machine

/-- R25, R160: the numeric value of a result code. -/
def Code.byte : Code → Byte
  | .ok             => 0
  | .connection     => 1
  | .shape          => 2
  | .valueDomain    => 3
  | .io             => 4
  | .notOpen        => 5
  | .alreadyOpen    => 6
  | .illegalCommand => 7

/-- R25: the STATUS register, CODE in bits 7:0. -/
def State.statusByte (s : State) : Byte := s.status.byte

end Sys2Proof.Machine
end

