-- ==== Sys2Proof/Machine/Operands.lean ====
section
/-! DEFINITION. The operand spaces and the pure datapath functions of 40_datapath.md: reading cells, column packing,
validation, the dual split and frame construction (R41, R80 to R86). -/

namespace Sys2Proof

/-- R41: `PixRead`. No rule calls it outside `r < rows`, `c < cols`; an unlisted cell is 0 (notes/assumptions/13.md). -/
def PixelOperand.cell (P : PixelOperand) (r c : Nat) : Nat := (P.cells.getD r []).getD c 0

/-- The operand of a given shape whose cells a function gives (R15, R62). -/
def PixelOperand.ofFn (rows cols : Nat) (f : Nat → Nat → Nat) : PixelOperand :=
  { rows := rows, cols := cols, cells := (List.range rows).map fun r => (List.range cols).map (f r) }

namespace Machine

/-- R80: `PACK_COLUMN`, bit `r` from the cell at panel row `r`, row 0 the topmost. -/
def packColumn (p : List Nat) : Byte :=
  BitVec.ofNat 8 ((List.range 7).map fun r => p.getD r 0 * 2 ^ r).sum

/-- R81: `UNPACK_COLUMN`, the inverse of `PACK_COLUMN`. -/
def unpackColumn (v : Byte) : List Nat := (List.range 7).map fun k => (v.getLsbD k).toNat

/-- The 7 cells of display column `c`, top to bottom (R82). -/
def panelColumn (P : PixelOperand) (c : Nat) : List Nat := (List.range 7).map fun r => P.cell r c

/-- R82: `ENCODE_PANEL`, one byte per display column, left to right. -/
def encodePanel (P : PixelOperand) : List Byte := (List.range 28).map fun c => packColumn (panelColumn P c)

/-- R83: a cell value in the binary domain. -/
def isBinary (v : Nat) : Bool := v == 0 || v == 1

/-- R83: every cell of the R×C operand is 0 or 1. -/
def allBinary (P : PixelOperand) (R C : Nat) : Bool :=
  (List.range R).all fun r => (List.range C).all fun c => isBinary (P.cell r c)

/-- R83: `VALIDATE`, the shape before any cell. -/
def validate (P : PixelOperand) (R C : Nat) : Code :=
  if P.rows ≠ R ∨ P.cols ≠ C then .shape
  else if allBinary P R C then .ok
  else .valueDomain

/-- R84: the top half, display rows 0..6. -/
def topHalf (P : PixelOperand) : PixelOperand := .ofFn 7 28 fun r c => P.cell r c

/-- R84: the bottom half, display rows 7..13. -/
def bottomHalf (P : PixelOperand) : PixelOperand := .ofFn 7 28 fun r c => P.cell (r + 7) c

/-- R84: `SPLIT_DUAL`. -/
def splitDual (P : PixelOperand) : PixelOperand × PixelOperand := (topHalf P, bottomHalf P)

/-- R85: `BUILD_FRAME`, the frame of R70. -/
def buildFrame (mode addr : Byte) (data : List Byte) : List Byte := frameBytes mode addr data

/-- R86: `PAINT_FRAME`, the standard data+refresh frame of one validated panel. -/
def paintFrame (addr : Byte) (P : PixelOperand) : List Byte :=
  buildFrame FrameMode.dataRefresh.byte addr (encodePanel P)

/-- The two frames of R104's `DUAL_WRITES`, top first. -/
def dualFrames (top bottom : Byte) (P : PixelOperand) : List (List Byte) :=
  [paintFrame top (splitDual P).1, paintFrame bottom (splitDual P).2]

/-- R76: `ZERO(R, C)`, the operand of OPEN's blank paint (R120). -/
def zeroBuffer (rows cols : Nat) : PixelOperand := .ofFn rows cols fun _ _ => 0

end Machine

end Sys2Proof
end

