-- ==== Sys2Proof/Machine/Ops.lean ====
section
/-! DEFINITION. The shared operations over the state: ending a command by `raise` or `finish` (R166), `TxWrite` (R44),
the writes of a command in order, with their wait for LINK (R45, R46), and `OpenPort` with its wait for PLATFORM
(R120, R122). -/

namespace Sys2Proof.Machine

/-! ### Ending a command: the block's one "trap entry" (R166) -/

/-- R166: STATUS gets the code, PHASE becomes IDLE and the code goes to the HOST as the response. What the command did
before stays. -/
def endCommand (c : Code) (s : State) : State :=
  { s with status := c, phase := .idle, responses := s.responses ++ [c] }

/-- R166: `raise E`. The next command starts from this state; there is no return instruction (R167). -/
def raise (c : Code) (s : State) : State := endCommand c s

/-- R166: `finish` does the same with OK. -/
def finish (s : State) : State := endCommand .ok s

/-- R130: what an illegal word does. -/
def illegalCommand (s : State) : State := raise .illegalCommand s

/-! ### Writing to the link -/

/-- R44: the leading bytes of `b` that an answer lets onto the wire. A count beyond the length is the whole list
(notes/assumptions/4.md). -/
def LinkAnswer.emitted (a : LinkAnswer) (b : List Byte) : List Byte :=
  match a with
  | .done => b
  | .fail k => b.take k

/-- R28, R44: a write returned `Ok`. -/
def LinkAnswer.ok : LinkAnswer → Bool
  | .done => true
  | .fail _ => false

/-- R44: the record of a write and its answer. -/
def writeRecord (b : List Byte) (a : LinkAnswer) : WriteRecord :=
  { requested := b, emitted := (a.emitted b).length, ok := a.ok }

/-- What a write with LINK's answer `a` puts on the link: the write, or the leading bytes a failed one emitted. -/
def LinkAnswer.sent (a : LinkAnswer) (b : List Byte) : Sent :=
  match a with
  | .done => .whole b
  | .fail k => .cut (b.take k)

/-- The bytes of one write join those on their way to the panels; no bytes are nothing to deliver
(notes/assumptions/9.md). -/
def sendToPanels (b : List Byte) (a : LinkAnswer) (transit : List Sent) : List Sent :=
  if a.emitted b = [] then transit else transit ++ [a.sent b]

/-- R44: `TxWrite(b)` with LINK's answer `a`. -/
def txWrite (b : List Byte) (a : LinkAnswer) (s : State) : State :=
  { s with
    wire := s.wire ++ a.emitted b
    writeLog := s.writeLog ++ [writeRecord b a]
    transit := sendToPanels b a s.transit }

/-- R121, R168: what an IO failure does to LINK_STATE. -/
def OnFail.release (m : OnFail) (s : State) : State :=
  match m with
  | .keepLink => s
  | .releaseLink => { s with linkState := .closed }

/-- R29, R46: the command waits for an answer that has not come, with PHASE BUSY. -/
def waitIn (p : Progress) (s : State) : State := { s with phase := .busy p }

/-- The writes of a command in order and its end (R45, R56): each waits for LINK's answer (R46), the first failing one
ends the command with IO and no later one is attempted (R106), and after the last the command finishes. -/
def runWrites (m : OnFail) : List (List Byte) → State → State
  | [], s => finish s
  | b :: bs, s =>
    match s.linkAnswers with
    | [] => waitIn (.writing m (b :: bs)) s
    | a :: as =>
      if a.ok then runWrites m bs (txWrite b a { s with linkAnswers := as })
      else raise .io (m.release (txWrite b a { s with linkAnswers := as }))

/-! ### Opening the port -/

/-- R120: OPEN from its `OpenPort()` on; TOP_ADDR and BOTTOM_ADDR are already written. -/
def openPort (s : State) : State :=
  match s.portAnswers with
  | [] => waitIn (.opening Config.openRequest) s
  | .fail :: as => raise .connection { s with portAnswers := as }
  | .ok :: as =>
    runWrites .releaseLink (dualFrames s.topAddr s.bottomAddr (zeroBuffer 14 28))
      { s with portAnswers := as, linkState := .opened }

/-- A BUSY block goes on with its command, as far as the answers that have come allow (R46, R122). -/
def resume (p : Progress) (s : State) : State :=
  match p with
  | .opening _ => openPort s
  | .writing m bs => runWrites m bs s

/-! ### The checks of the commands (R163) -/

/-- R163: the checks every paint command makes, in their order, and then its writes: the link state, the shape, the
domain (R83, R101). -/
def paint (P : PixelOperand) (R C : Nat) (frames : List (List Byte)) (s : State) : State :=
  match s.linkState with
  | .closed => raise .notOpen s
  | .opened =>
    match validate P R C with
    | .ok => runWrites .keepLink frames s
    | c => raise c s

end Sys2Proof.Machine
end

