-- ==== Sys2Proof/Machine/Link.lean ====
section
/-! DEFINITION. The link and raw commands (42_link_and_raw_commands.md). -/

namespace Sys2Proof.Machine

/-- R120, R121: OPEN. -/
def execOpenLink (top bottom : Byte) (s : State) : Host.Outcome State Fault Refusal :=
  match s.linkState with
  | .opened => .next (raise .alreadyOpen s)
  | .closed => .next (openPort { s with topAddr := top, bottomAddr := bottom })

/-- R124: CLOSE releases the link. On a closed link it ends with NOT_OPEN and changes nothing else (decision D9, which is
followed against R124's and R163's words: notes/assumptions/7.md). -/
def execCloseLink (s : State) : Host.Outcome State Fault Refusal :=
  match s.linkState with
  | .closed => .next (raise .notOpen s)
  | .opened => .next (finish { s with linkState := .closed })

/-- R127, R128, R129: SEND_RAW, one write of the operand as it is. -/
def execSendRaw (raw : List Byte) (s : State) : Host.Outcome State Fault Refusal :=
  match s.linkState with
  | .closed => .next (raise .notOpen s)
  | .opened => .next (runWrites .keepLink [raw] s)

end Sys2Proof.Machine
end

