-- ==== Sys2Proof/Machine/Paint.lean ====
section
/-! DEFINITION. The paint commands (41_paint_commands.md). -/

namespace Sys2Proof.Machine

/-- R100: PAINT_SINGLE. -/
def execPaintSingle (addr : Byte) (P : PixelOperand) (s : State) : Host.Outcome State Fault Refusal :=
  .next (paint P 7 28 [paintFrame addr P] s)

/-- R104: PAINT_DUAL. -/
def execPaintDual (top bottom : Byte) (P : PixelOperand) (s : State) : Host.Outcome State Fault Refusal :=
  .next (paint P 14 28 (dualFrames top bottom P) s)

/-- R108: PAINT_DUAL_DEFAULT, to the construction addresses. -/
def execPaintDualDefault (P : PixelOperand) (s : State) : Host.Outcome State Fault Refusal :=
  .next (paint P 14 28 (dualFrames s.topAddr s.bottomAddr P) s)

end Sys2Proof.Machine
end

