-- ==== Sys2Proof/Machine/Dispatch.lean ====
section
/-! DEFINITION. The dispatch of every instruction to its meaning. -/

namespace Sys2Proof.Machine

def exec (i : Instr) (s : State) : Host.Outcome State Fault Refusal :=
  match i with
  | .openLink top bottom => Sys2Proof.Machine.execOpenLink top bottom s
  | .closeLink => Sys2Proof.Machine.execCloseLink s
  | .paintSingle addr pix => Sys2Proof.Machine.execPaintSingle addr pix s
  | .paintDual top bottom pix => Sys2Proof.Machine.execPaintDual top bottom pix s
  | .paintDualDefault pix => Sys2Proof.Machine.execPaintDualDefault pix s
  | .sendRaw raw => Sys2Proof.Machine.execSendRaw raw s
  | .frameRefresh addr data => Sys2Proof.Machine.execFrameRefresh addr data s
  | .frameDataRefresh addr data => Sys2Proof.Machine.execFrameDataRefresh addr data s
  | .frameDataNoRefresh addr data => Sys2Proof.Machine.execFrameDataNoRefresh addr data s

end Sys2Proof.Machine
end

