-- ==== Sys2Proof/Machine/Fetch.lean ====
section
/-! DEFINITION. What the machine does next: which agent moves, and the instruction it reads from its port. -/

namespace Sys2Proof.Machine

/-- What the next step is, with the state its agent has taken its input from. -/
inductive Action
  | run (i : Instr) (s : State)          -- an instruction was read: its meaning runs
  | illegal (s : State)                  -- the command word is ILLEGAL (R69, R130)
  | stray (b : List Byte) (s : State)    -- bytes that are no frame reach the panels (R147)
  | goOn (p : Progress)                  -- a BUSY block goes on with its command (R29)
  | wait                                 -- IDLE, and the HOST has presented nothing (R191)
  deriving DecidableEq, Repr

/-- The panels' input: the oldest bytes on the link (R56; notes/assumptions/9.md). The bytes of a failed write are no
frame, even where all of them were emitted: after IO the panel does not have the write's frame (R200, R204;
notes/assumptions/24.md). -/
def takeFromLink (x : Sent) (s : State) : Action :=
  match x with
  | .whole b =>
    match decode (.frame b) with
    | .ok i => .run i s
    | .error _ => .stray b s
  | .cut b => .stray b s

/-- The command port: a command is accepted and decoded before anything else is checked (R61, R68, R163). -/
def acceptCommand (c : Command) (s : State) : Action :=
  match decode (.command c) with
  | .ok i => .run i s
  | .error _ => .illegal s

/-- Bytes on the link reach the panels first (notes/assumptions/9.md). A BUSY block goes on with its command; an IDLE
one accepts the command the HOST presents (R29, R61). -/
def nextAction (s : State) : Action :=
  match s.transit with
  | x :: xs => takeFromLink x { s with transit := xs }
  | [] =>
    match s.phase with
    | .busy p => .goOn p
    | .idle =>
      match s.commands with
      | [] => .wait
      | c :: cs => acceptCommand c { s with commands := cs }

/-- `s` with one encoded instruction put where the next step reads its input: a frame as the oldest bytes on the link, a
command at the HOST's end of an IDLE command port with nothing on the link (notes/assumptions/14.md). -/
def putAtPort (e : Encoded) (s : State) : State :=
  match e with
  | .frame bytes => { s with transit := .whole bytes :: s.transit }
  | .command c => { s with transit := [], phase := .idle, commands := c :: s.commands }

end Sys2Proof.Machine
end

