-- ==== Sys2Proof/Machine/Step.lean ====
section
/-! DEFINITION. One step of the machine, and where an instruction is placed so that the next step runs it. -/

namespace Sys2Proof.Machine

/-- One step: what `nextAction` says. A wait for an answer that has not come, or for a command, leaves the state as it
is (R46, R122, R178, R191; notes/assumptions/5.md). -/
def step (s : State) : Host.Outcome State Fault Refusal :=
  match nextAction s with
  | .run i s' => exec i s'
  | .illegal s' => .next (illegalCommand s')
  | .stray b s' => .next (receiveStray b s')
  | .goOn p => .next (resume p s)
  | .wait => .next s

/-- `s` with the table's word placed where the next step reads its instruction (notes/assumptions/14.md). -/
def State.withFetchWord (s : State) (nbits w : Nat) : State := putAtPort (tableEncoded nbits w) s

end Sys2Proof.Machine
end

