-- ==== Sys2Proof/Machine/Assembly.lean ====
section
/-! DEFINITION. The written form of command programs (R75 to R77): buffer literals, assembly lines, and the commands
they stand for. The text itself is not parsed. -/

namespace Sys2Proof.Machine

/-- R76: `ONES(R, C)`. -/
def onesBuffer (rows cols : Nat) : PixelOperand := .ofFn rows cols fun _ _ => 1

/-- R76: `ROW(R, C, k)`. -/
def rowBuffer (rows cols k : Nat) : PixelOperand := .ofFn rows cols fun r _ => if r = k then 1 else 0

/-- R76: `COLUMN(R, C, j)`. -/
def columnBuffer (rows cols j : Nat) : PixelOperand := .ofFn rows cols fun _ c => if c = j then 1 else 0

/-- R76: `DIAG(R, C)`. -/
def diagBuffer (rows cols : Nat) : PixelOperand := .ofFn rows cols fun r c => if r = c % 7 then 1 else 0

/-- R76: `CELL(R, C, r0, c0, v)`. -/
def cellBuffer (rows cols r0 c0 v : Nat) : PixelOperand :=
  .ofFn rows cols fun r c => if r = r0 ∧ c = c0 then v else 0

/-- R76: `BUF(R, C)`, its strings given as rows of decimal digits. -/
def bufBuffer (rows cols : Nat) (digits : List (List Nat)) : PixelOperand :=
  { rows := rows, cols := cols, cells := digits }

/-- R75, R77: one line of a command program. -/
inductive AsmLine
  | openLine (top bottom : Byte)
  | closeLine
  | paintSingleLine (addr : Byte) (buffer : PixelOperand)
  | paintDualLine (top bottom : Byte) (buffer : PixelOperand)
  | paintDualDefaultLine (buffer : PixelOperand)
  | sendRawLine (bytes : List Byte)
  | wordLine (w : CmdWord)
  | blank (top bottom : Byte)
  | sendFrame (mode addr : Byte) (data : List Byte)
  deriving DecidableEq, Repr

/-- R75: the word of a line whose low bytes are `bottom` and `top`, over the opcode's fixed bits. -/
def wordOver (base : CmdWord) (bottom top : Byte) : CmdWord :=
  base ||| (bottom.zeroExtend 32 <<< 8) ||| top.zeroExtend 32

/-- R75, R77: the command record a line presents. -/
def AsmLine.command : AsmLine → Command
  | .openLine top bottom => { word := wordOver 0x01000000 bottom top, pix := .absent, raw := [] }
  | .closeLine => { word := 0x02000000, pix := .absent, raw := [] }
  | .paintSingleLine addr buffer => { word := wordOver 0x10000000 0 addr, pix := buffer, raw := [] }
  | .paintDualLine top bottom buffer => { word := wordOver 0x11000000 bottom top, pix := buffer, raw := [] }
  | .paintDualDefaultLine buffer => { word := 0x11800000, pix := buffer, raw := [] }
  | .sendRawLine bytes => { word := 0x20000000, pix := .absent, raw := bytes }
  | .wordLine w => { word := w, pix := .absent, raw := [] }
  | .blank top bottom => { word := wordOver 0x11000000 bottom top, pix := zeroBuffer 14 28, raw := [] }
  | .sendFrame mode addr data =>
    { word := 0x20000000, pix := .absent, raw := [frameHeader, mode, addr] ++ data ++ [frameTerminator] }

end Sys2Proof.Machine
end

