-- ==== Sys2Proof/Machine/Environment.lean ====
section
/-! DEFINITION. What the outside world does to the machine between two steps: the HOST presents a command, LINK and
PLATFORM answer, power is cycled. -/

namespace Sys2Proof.Machine

/-- R60, R61: the HOST will present one more command after those it holds. -/
def State.hostPresents (c : Command) (s : State) : State := { s with commands := s.commands ++ [c] }

/-- R44: LINK's next answers have come. -/
def State.linkReplies (as : List LinkAnswer) (s : State) : State := { s with linkAnswers := s.linkAnswers ++ as }

/-- R120, R122: PLATFORM's next answers have come. -/
def State.platformReplies (as : List PortAnswer) (s : State) : State := { s with portAnswers := s.portAnswers ++ as }

/-- R177, R190: power goes off and comes back. Nothing of the block's state survives; the two address registers come
back with any values. The other agents' side is untouched (notes/assumptions/23.md). -/
def State.powerCycle (top bottom : Byte) (s : State) : State :=
  { s with
    phase := .idle, linkState := .closed, topAddr := top, bottomAddr := bottom, status := .ok
    wire := [], writeLog := [] }

end Sys2Proof.Machine
end

