-- ==== Sys2Proof/Machine/WireView.lean ====
section
/-! DEFINITION. A reader of WIRE (R148): the frames and pixels a paint-only stream carries. It is an observation; no
command uses it (R20, R43). -/

namespace Sys2Proof.Machine

/-- R148 steps 2 to 4 on one 32-byte piece: its address and its 28 columns of 7 bits, none if the fixed bytes differ. -/
def readPiece (piece : List Byte) : Option (Byte × List (List Nat)) :=
  if piece.getD 0 0 = 0x80 ∧ piece.getD 1 0 = 0x83 ∧ piece.getD 31 0 = 0x8F then
    some (piece.getD 2 0, ((piece.drop 3).take 28).map unpackColumn)
  else none

/-- R148 step 1: `n` pieces of 32 bytes, in order. -/
def cutWire : Nat → List Byte → List (List Byte)
  | 0, _ => []
  | n + 1, w => w.take 32 :: cutWire n (w.drop 32)

/-- R148: the frames of a stream, none if its length is no multiple of 32 or a piece is no paint frame. -/
def parseWire (w : List Byte) : Option (List (Byte × List (List Nat))) :=
  if w.length % 32 = 0 then (cutWire (w.length / 32) w).mapM readPiece else none

/-- The 28 columns of 7 cells of a panel operand, left to right, each top to bottom. -/
def panelColumns (P : PixelOperand) : List (List Nat) :=
  (List.range 28).map (panelColumn P)

end Sys2Proof.Machine
end

