-- ==== Sys2Proof/Safety.lean ====
section
/-! DEFINITION. What holds of every state a run reaches: WRITE_LOG and WIRE agree (R28), and a BUSY block is inside a
command that its link state allows (R29, R120, R163). -/

namespace Sys2Proof.Machine

/-- R100, R104: a buffer of the exact shape, binary-valued. -/
def IsBuffer (P : PixelOperand) (R C : Nat) : Prop :=
  P.rows = R ∧ P.cols = C ∧ ∀ r < R, ∀ c < C, P.cell r c = 0 ∨ P.cell r c = 1

/-- R83, R162: the shape is right and some cell is neither 0 nor 1. -/
def HasBadCell (P : PixelOperand) (R C : Nat) : Prop :=
  P.rows = R ∧ P.cols = C ∧ ∃ r < R, ∃ c < C, P.cell r c ≠ 0 ∧ P.cell r c ≠ 1

/-- R28: a record's count lies within its request, and is all of it when the write returned `Ok`. -/
def WriteRecord.consistent (r : WriteRecord) : Prop :=
  r.emitted ≤ r.requested.length ∧ (r.ok = true → r.emitted = r.requested.length)

/-- R28: the bytes a record put on WIRE. -/
def WriteRecord.bytes (r : WriteRecord) : List Byte := r.requested.take r.emitted

/-- R28, R29, R120: the invariant of the encoder's record. -/
structure State.Inv (s : State) : Prop where
  records : ∀ r ∈ s.writeLog, r.consistent
  wireIsLog : s.wire = s.writeLog.flatMap WriteRecord.bytes
  openingClosed : ∀ q, s.phase = .busy (.opening q) → s.linkState = .closed ∧ q = Config.openRequest
  writingOpen : ∀ m bs, s.phase = .busy (.writing m bs) → s.linkState = .opened ∧ bs ≠ []

/-- Two states that agree on everything a command may read: on all but WIRE, WRITE_LOG, STATUS, the HOST's past
responses and the panels' side (R20, R26, R43). -/
def State.sameInputs (s t : State) : Prop :=
  s.phase = t.phase ∧ s.linkState = t.linkState ∧ s.topAddr = t.topAddr ∧ s.bottomAddr = t.bottomAddr ∧
  s.commands = t.commands ∧ s.linkAnswers = t.linkAnswers ∧ s.portAnswers = t.portAnswers

end Sys2Proof.Machine
end

