-- ==== Sys2Proof/Certificates/Slice0/Obligations.lean ====
section
/-! DEFINITION. The statements about the model, from the numbered rules of spec/. Each is a `Prop`; none is proved here. -/

open Sys2Proof Sys2Proof.Machine

/-! ### Datapath (40_datapath.md) -/

/-- R80: PACK_COLUMN is the sum Σ p[r]·2^r over rows 0..6: bit r of the byte is the cell at row r, and bit 7 is 0. -/
def Obligations.PackColumnPutsEachRowInItsBit : Prop :=
  ∀ p : List Nat, p.length = 7 → (∀ v ∈ p, v = 0 ∨ v = 1) →
    (packColumn p).toNat = p.getD 0 0 * 1 + p.getD 1 0 * 2 + p.getD 2 0 * 4 + p.getD 3 0 * 8 + p.getD 4 0 * 16 +
      p.getD 5 0 * 32 + p.getD 6 0 * 64 ∧
    (∀ r < 7, (packColumn p).getLsbD r = (p.getD r 0 == 1)) ∧
    (packColumn p).getLsbD 7 = false

/-- R81: the result is in 0x00..0x7F, PACK_COLUMN and UNPACK_COLUMN are inverse bijections between the columns of 7 bits
and those bytes, and no packed column is a header, a mode byte or a terminator. -/
def Obligations.ColumnPackingIsABijection : Prop :=
  (∀ p : List Nat, p.length = 7 → (∀ v ∈ p, v = 0 ∨ v = 1) →
    (packColumn p).toNat ≤ 0x7F ∧ unpackColumn (packColumn p) = p ∧ packColumn p ≠ 0x80 ∧ packColumn p ≠ 0x82 ∧
    packColumn p ≠ 0x83 ∧ packColumn p ≠ 0x84 ∧ packColumn p ≠ 0x8F) ∧
  (∀ v : Byte, v.toNat ≤ 0x7F →
    packColumn (unpackColumn v) = v ∧ (unpackColumn v).length = 7 ∧ (∀ x ∈ unpackColumn v, x = 0 ∨ x = 1) ∧
    ∀ k < 7, (unpackColumn v).getD k 0 = (v.getLsbD k).toNat)

/-- R82, R85, R86: ENCODE_PANEL is one PACK_COLUMN per display column, left to right; BUILD_FRAME is
`[0x80, mode, addr] ++ data ++ [0x8F]`, four bytes longer than its data; PAINT_FRAME is the 32-byte data+refresh frame
of the panel. Of a binary panel, no data byte exceeds 0x7F (R74). -/
def Obligations.FramesAreBuiltAsLaidOut : Prop :=
  (∀ P : PixelOperand, (encodePanel P).length = 28 ∧
    ∀ c < 28, (encodePanel P).getD c 0 =
      packColumn [P.cell 0 c, P.cell 1 c, P.cell 2 c, P.cell 3 c, P.cell 4 c, P.cell 5 c, P.cell 6 c]) ∧
  (∀ (mode addr : Byte) (data : List Byte),
    buildFrame mode addr data = [0x80, mode, addr] ++ data ++ [0x8F] ∧
    (buildFrame mode addr data).length = data.length + 4) ∧
  (∀ (addr : Byte) (P : PixelOperand),
    paintFrame addr P = [0x80, 0x83, addr] ++ encodePanel P ++ [0x8F] ∧ (paintFrame addr P).length = 32) ∧
  (∀ P : PixelOperand, IsBuffer P 7 28 → ∀ d ∈ encodePanel P, d.toNat ≤ 0x7F)

/-- R83, R162: VALIDATE returns SHAPE exactly when the rows or columns differ, VALUE_DOMAIN exactly when the shape is
right and some cell is neither 0 nor 1, and OK exactly when the shape is right and every cell is 0 or 1. -/
def Obligations.ValidateChecksShapeThenDomain : Prop :=
  ∀ (P : PixelOperand) (R C : Nat),
    (validate P R C = .shape ↔ P.rows ≠ R ∨ P.cols ≠ C) ∧
    (validate P R C = .valueDomain ↔ HasBadCell P R C) ∧
    (validate P R C = .ok ↔ IsBuffer P R C)

/-- R84, R89: SPLIT_DUAL gives two 7×28 operands, display rows 0..6 and 7..13, and the frames of a dual paint carry
them: bit k of data byte c is display cell (k, c) in the top frame and (k + 7, c) in the bottom frame. -/
def Obligations.DualFramesCarryTheDisplayRows : Prop :=
  ∀ P : PixelOperand,
    ((splitDual P).1.rows = 7 ∧ (splitDual P).1.cols = 28 ∧ (splitDual P).2.rows = 7 ∧ (splitDual P).2.cols = 28) ∧
    (∀ k < 7, ∀ c < 28, (splitDual P).1.cell k c = P.cell k c ∧ (splitDual P).2.cell k c = P.cell (k + 7) c) ∧
    (IsBuffer P 14 28 → ∀ top bottom : Byte, ∃ f g : List Byte, dualFrames top bottom P = [f, g] ∧
      ∀ k < 7, ∀ c < 28,
        (f.getD (3 + c) 0).getLsbD k = (P.cell k c == 1) ∧ (g.getD (3 + c) 0).getLsbD k = (P.cell (k + 7) c == 1))

/-! ### Encoding (30_encoding.md) -/

/-- R66: no word meets two rows of the opcode map; R68: DECODE answers a command exactly when the word meets its row,
whatever the bulk operands. -/
def Obligations.DecodeFollowsTheOpcodeMap : Prop :=
  (opcodeMap.Pairwise fun r r' => ∀ w, ¬ (r.matches w = true ∧ r'.matches w = true)) ∧
  (∀ (c : Command) (m : String),
    (∃ i, decode (.command c) = .ok i ∧ i.mnemonic = m) ↔ ∃ r ∈ opcodeMap, r.mnemonic = m ∧ r.matches c.word = true)

/-- R67: the addresses of a decoded command are the fields A = bits 7:0 and B = bits 15:8, unchanged. -/
def Obligations.AddressesAreTheWordsLowBytes : Prop :=
  ∀ (c : Command) (i : Instr), decode (.command c) = .ok i →
    (∀ top bottom, i = .openLink top bottom → top = c.word.extractLsb' 0 8 ∧ bottom = c.word.extractLsb' 8 8) ∧
    (∀ addr P, i = .paintSingle addr P → addr = c.word.extractLsb' 0 8 ∧ P = c.pix) ∧
    (∀ top bottom P, i = .paintDual top bottom P →
      top = c.word.extractLsb' 0 8 ∧ bottom = c.word.extractLsb' 8 8 ∧ P = c.pix) ∧
    (∀ P, i = .paintDualDefault P → P = c.pix) ∧
    (∀ raw, i = .sendRaw raw → raw = c.raw)

/-- R60: a command whose rule does not read an operand ignores it, whatever value it holds: OPEN and CLOSE ignore both,
the paint commands the raw operand, SEND_RAW the pixel operand; and an illegal word is illegal with any operands. -/
def Obligations.UnreadOperandsAreIgnored : Prop :=
  ∀ (w : CmdWord) (P P' : PixelOperand) (raw raw' : List Byte),
    (∀ i, decode (.command { word := w, pix := P, raw := raw }) = .ok i →
      (i.mnemonic = "OPEN" ∨ i.mnemonic = "CLOSE" → decode (.command { word := w, pix := P', raw := raw' }) = .ok i) ∧
      (i.mnemonic = "PAINT_SINGLE" ∨ i.mnemonic = "PAINT_DUAL" ∨ i.mnemonic = "PAINT_DUAL_DEFAULT" →
        decode (.command { word := w, pix := P, raw := raw' }) = .ok i) ∧
      (i.mnemonic = "SEND_RAW" → decode (.command { word := w, pix := P', raw := raw }) = .ok i)) ∧
    (∀ e, decode (.command { word := w, pix := P, raw := raw }) = .error e →
      decode (.command { word := w, pix := P', raw := raw' }) = .error e)

/-- Decode and encode agree on every instruction, commands and frames, with every operand at every value. -/
def Obligations.DecodeOfEncodeIsTheInstruction : Prop :=
  ∀ i : Instr, decode (encode i) = .ok i

/-- R79: encode gives back the word of every legal command word, so each command has exactly one word; and the bytes of
every whole frame. -/
def Obligations.EncodeOfDecodeIsTheWord : Prop :=
  (∀ (c : Command) (i : Instr), decode (.command c) = .ok i → ∃ c', encode i = .command c' ∧ c'.word = c.word) ∧
  (∀ (c c' : Command) (i : Instr), decode (.command c) = .ok i → decode (.command c') = .ok i → c.word = c'.word) ∧
  (∀ (b : List Byte) (i : Instr), decode (.frame b) = .ok i → encode i = .frame b)

/-- R78 and the table: words written out from the encodings decode to the instructions they stand for. -/
def Obligations.ExampleWordsDecode : Prop :=
  decodeTableWord 32 0x01000201 = some (.openLink 0x01 0x02) ∧
  decodeTableWord 32 0x02000000 = some .closeLink ∧
  decodeTableWord 32 0x10000005 = some (.paintSingle 0x05 .absent) ∧
  decodeTableWord 32 0x100000FF = some (.paintSingle 0xFF .absent) ∧
  decodeTableWord 32 0x11000201 = some (.paintDual 0x01 0x02 .absent) ∧
  decodeTableWord 32 0x11800000 = some (.paintDualDefault .absent) ∧
  decodeTableWord 32 0x20000000 = some (.sendRaw []) ∧
  decodeTableWord 32 0x11800001 = none ∧
  decodeTableWord 32 0x10010000 = none ∧
  decodeTableWord 32 0x00000000 = none ∧
  decode (.frame [0x80, 0x84, 0x03, 0x7F, 0x8F]) = .ok (.frameDataNoRefresh 0x03 [0x7F]) ∧
  decode (.frame [0x80, 0x82, 0x05, 0x8F]) = .ok (.frameRefresh 0x05 [])

/-- R75, R77: each assembly line presents the command it is written for, `.word` any word with the absent operands, and
the pseudo-instructions are their expansions. -/
def Obligations.AssemblyLinesAreTheirCommands : Prop :=
  (∀ top bottom, decode (.command (AsmLine.openLine top bottom).command) = .ok (.openLink top bottom)) ∧
  decode (.command AsmLine.closeLine.command) = .ok .closeLink ∧
  (∀ addr P, decode (.command (AsmLine.paintSingleLine addr P).command) = .ok (.paintSingle addr P)) ∧
  (∀ top bottom P, decode (.command (AsmLine.paintDualLine top bottom P).command) = .ok (.paintDual top bottom P)) ∧
  (∀ P, decode (.command (AsmLine.paintDualDefaultLine P).command) = .ok (.paintDualDefault P)) ∧
  (∀ raw, decode (.command (AsmLine.sendRawLine raw).command) = .ok (.sendRaw raw)) ∧
  (∀ w, (AsmLine.wordLine w).command = { word := w, pix := .absent, raw := [] }) ∧
  (∀ top bottom, (AsmLine.blank top bottom).command = (AsmLine.paintDualLine top bottom (zeroBuffer 14 28)).command) ∧
  (∀ mode addr data, (AsmLine.sendFrame mode addr data).command =
    (AsmLine.sendRawLine ([0x80, mode, addr] ++ data ++ [0x8F])).command)

/-! ### The step (10_state.md, 20_memory.md, 60_exceptions.md) -/

/-- A step runs the decoded instruction: a command presented to an IDLE block with nothing on the link (R21, R61, R68), or
the oldest bytes on the link; `withFetchWord` places exactly the instruction `decodeTableWord` reads; and a BUSY block with
nothing on the link goes on with its command (R29, R46, R122). The rules give the command port and the wait; that bytes on
the link reach the panels before the block moves is the model's choice (notes/assumptions/9.md), that one step is one
command up to its end or its wait is DEDUCED (1.md), and what `withFetchWord` and `decodeTableWord` place and read is the
model's convention (14.md). -/
def Obligations.StepRunsTheDecodedInstruction : Prop :=
  (∀ (s : State) (c : Command) (cs : List Command) (i : Instr),
    s.transit = [] → s.phase = .idle → s.commands = c :: cs → decode (.command c) = .ok i →
    step s = exec i { s with commands := cs }) ∧
  (∀ (s : State) (b : List Byte) (xs : List Sent) (i : Instr),
    s.transit = .whole b :: xs → decode (.frame b) = .ok i → step s = exec i { s with transit := xs }) ∧
  (∀ (s : State) (nbits w : Nat) (i : Instr), 8 < nbits → decodeTableWord nbits w = some i →
    step (s.withFetchWord nbits w) = exec i { s with transit := [], phase := .idle }) ∧
  (∀ (s : State) (nbits w : Nat) (i : Instr), nbits ≤ 8 → decodeTableWord nbits w = some i →
    step (s.withFetchWord nbits w) = exec i s) ∧
  (∀ (s : State) (p : Progress), s.transit = [] → s.phase = .busy p → step s = .next (resume p s))

/-- R69, R130: an illegal word, presented to an IDLE block, ends with ILLEGAL_COMMAND whatever the link state and does
nothing else: no byte, no write, no other register. -/
def Obligations.IllegalWordOnlyReports : Prop :=
  ∀ (s : State) (c : Command) (cs : List Command),
    s.transit = [] → s.phase = .idle → s.commands = c :: cs → (∀ r ∈ opcodeMap, r.matches c.word = false) →
    step s = .next { s with
      commands := cs, status := .illegalCommand, phase := .idle, responses := s.responses ++ [.illegalCommand] }

/-- Every step answers a next state; no command word, no frame and no bytes stop the machine (R161, and R178's reported
codes). R178 gives an unanswered write or open no enabled step: that the model's step answers the same state there is its
DESIGN CHOICE (notes/assumptions/5.md). -/
def Obligations.StepAlwaysAnswersANextState : Prop :=
  ∀ s : State, ∃ t, step s = .next t

/-- R46, R122, R191: while LINK (or PLATFORM) has not answered, a BUSY block stays as it is, with no response and no
command taken; an IDLE block with no command presented stays as it is. That a wait is a step that leaves the state as it
is, is the model's choice (notes/assumptions/5.md). -/
def Obligations.AnUnansweredBlockWaits : Prop :=
  ∀ s : State, s.transit = [] →
    (∀ m b bs, s.phase = .busy (.writing m (b :: bs)) → s.linkAnswers = [] → step s = .next s) ∧
    (s.phase = .busy (.opening Config.openRequest) → s.portAnswers = [] → step s = .next s) ∧
    (s.phase = .idle → s.commands = [] → step s = .next s)

/-- R61: the command port takes at most one command in a step, only while PHASE is IDLE, and the first one the HOST
holds; a command presented while PHASE is BUSY is held. -/
def Obligations.PortTakesOneCommandOnlyWhenIdle : Prop :=
  ∀ s t : State, step s = .next t →
    t.commands = s.commands ∨ (s.phase = .idle ∧ ∃ c, s.commands = c :: t.commands)

/-- R25, R61, R166: a step either ends no command, and STATUS and the responses are as before, or ends one: PHASE is
IDLE and the HOST receives exactly one response, the new STATUS. -/
def Obligations.TheResponseIsTheNewStatus : Prop :=
  ∀ s t : State, step s = .next t →
    (t.status = s.status ∧ t.responses = s.responses) ∨ (t.phase = .idle ∧ t.responses = s.responses ++ [t.status])

/-- R27: WIRE (and WRITE_LOG) are append-only, over every step; both are empty after power-on. -/
def Obligations.WireIsAppendOnly : Prop :=
  State.reset.wire = [] ∧ State.reset.writeLog = [] ∧
  ∀ s t : State, step s = .next t → s.wire <+: t.wire ∧ s.writeLog <+: t.writeLog

/-- R28, R29: every step keeps the invariant: each record's count lies within its request and is all of it when `ok`,
WIRE is the concatenation of the records' emitted bytes, and a BUSY block is opening a closed link or writing to an open
one. -/
def Obligations.StepKeepsTheRecordConsistent : Prop :=
  ∀ s t : State, s.Inv → step s = .next t → t.Inv

/-- The invariant holds after power-on, and a power cycle restores it. -/
def Obligations.PowerOnRecordIsConsistent : Prop :=
  State.reset.Inv ∧ ∀ (top bottom : Byte) (s : State), (s.powerCycle top bottom).Inv

/-- R35, R190: the values after power-on, for any values of the two address registers (they are unspecified), and that
nothing has been emitted. -/
def Obligations.PowerOnValues : Prop :=
  (State.reset.phase = .idle ∧ State.reset.linkState = .closed ∧ State.reset.status = .ok ∧
    State.reset.wire = [] ∧ State.reset.writeLog = []) ∧
  (∀ (top bottom : Byte) (s : State),
    (s.powerCycle top bottom).phase = .idle ∧ (s.powerCycle top bottom).linkState = .closed ∧
    (s.powerCycle top bottom).topAddr = top ∧ (s.powerCycle top bottom).bottomAddr = bottom ∧
    (s.powerCycle top bottom).status = .ok ∧ (s.powerCycle top bottom).wire = [] ∧
    (s.powerCycle top bottom).writeLog = [])

/-- R25, R160: the numeric codes of STATUS, all different and none above 7. -/
def Obligations.StatusCodesAreTheTable : Prop :=
  Code.ok.byte = 0 ∧ Code.connection.byte = 1 ∧ Code.shape.byte = 2 ∧ Code.valueDomain.byte = 3 ∧ Code.io.byte = 4 ∧
  Code.notOpen.byte = 5 ∧ Code.alreadyOpen.byte = 6 ∧ Code.illegalCommand.byte = 7 ∧
  ∀ s : State, s.statusByte.toNat ≤ 7

/-- R23, R24: TOP_ADDR and BOTTOM_ADDR change only when OPEN is taken on a closed link, and then to its operands A and
B. -/
def Obligations.OnlyOpenWritesTheAddresses : Prop :=
  ∀ s t : State, step s = .next t →
    (t.topAddr = s.topAddr ∧ t.bottomAddr = s.bottomAddr) ∨
    (∃ c top bottom, s.phase = .idle ∧ s.linkState = .closed ∧ s.commands = c :: t.commands ∧
      decode (.command c) = .ok (.openLink top bottom) ∧ t.topAddr = top ∧ t.bottomAddr = bottom)

/-- R22, R126: in every state that meets the invariant, an open link is closed only by CLOSE and by the failure path of
OPEN's blank paint, and a closed link is opened only by OPEN. -/
def Obligations.OnlyOpenAndCloseChangeTheLink : Prop :=
  ∀ s t : State, s.Inv → step s = .next t → t.linkState ≠ s.linkState →
    (s.linkState = .opened ∧
      ((∃ c, s.phase = .idle ∧ s.commands = c :: t.commands ∧ decode (.command c) = .ok .closeLink) ∨
       (∃ bs, s.phase = .busy (.writing .releaseLink bs) ∧ t.status = .io))) ∨
    (s.linkState = .closed ∧
      ((∃ c top bottom, s.phase = .idle ∧ s.commands = c :: t.commands ∧
          decode (.command c) = .ok (.openLink top bottom)) ∨
       (∃ q, s.phase = .busy (.opening q))))

/-- R101, R130, R166: a command that ends with any code but OK and IO has written nothing: no byte on WIRE, no record,
nothing on the link. -/
def Obligations.RejectedCommandsWriteNothing : Prop :=
  ∀ (i : Instr) (s t : State) (c : Code), exec i s = .next t → t.responses = s.responses ++ [c] → c ≠ .ok → c ≠ .io →
    t.wire = s.wire ∧ t.writeLog = s.writeLog ∧ t.transit = s.transit ∧ t.status = c

/-- R101: a paint command whose operand fails validation, in any cell of the whole operand, writes nothing and reports
it, on an open link. -/
def Obligations.FailedValidationWritesNothing : Prop :=
  ∀ (s : State) (P : PixelOperand) (addr top bottom : Byte), s.linkState = .opened →
    (¬ IsBuffer P 7 28 → ∃ t, exec (.paintSingle addr P) s = .next t ∧ t.wire = s.wire ∧ t.writeLog = s.writeLog ∧
      (t.status = .shape ∨ t.status = .valueDomain)) ∧
    (¬ IsBuffer P 14 28 → ∃ t, exec (.paintDual top bottom P) s = .next t ∧ t.wire = s.wire ∧
      t.writeLog = s.writeLog ∧ (t.status = .shape ∨ t.status = .valueDomain)) ∧
    (¬ IsBuffer P 14 28 → ∃ t, exec (.paintDualDefault P) s = .next t ∧ t.wire = s.wire ∧
      t.writeLog = s.writeLog ∧ (t.status = .shape ∨ t.status = .valueDomain))

/-! ### The commands (41_paint_commands.md, 42_link_and_raw_commands.md) -/

/-- R44, R46, R100, R102: PAINT_SINGLE in every case: its encoding; NOT_OPEN; SHAPE; VALUE_DOMAIN; the wait for LINK; the
one write answered Done, 32 bytes and OK; the write answered Fail(k), its first k bytes and IO. In each, all else is
unchanged. The model's own are: a k above 32 (notes/assumptions/4.md), the bytes on the link (`transit`, 9.md, 24.md), and the
cut of the command into steps at a wait (1.md). -/
def Obligations.PaintSingleInEveryCase : Prop :=
  ∀ (addr : Byte) (P : PixelOperand) (s : State),
    (∀ (w : CmdWord) (raw : List Byte), w &&& 0xFFFFFF00 = 0x10000000 →
      decode (.command { word := w, pix := P, raw := raw }) = .ok (.paintSingle (w.extractLsb' 0 8) P)) ∧
    (s.linkState = .closed → exec (.paintSingle addr P) s =
      .next { s with status := .notOpen, phase := .idle, responses := s.responses ++ [.notOpen] }) ∧
    (s.linkState = .opened → (P.rows ≠ 7 ∨ P.cols ≠ 28) → exec (.paintSingle addr P) s =
      .next { s with status := .shape, phase := .idle, responses := s.responses ++ [.shape] }) ∧
    (s.linkState = .opened → HasBadCell P 7 28 → exec (.paintSingle addr P) s =
      .next { s with status := .valueDomain, phase := .idle, responses := s.responses ++ [.valueDomain] }) ∧
    (s.linkState = .opened → IsBuffer P 7 28 → ∀ f, f = [0x80, 0x83, addr] ++ encodePanel P ++ [0x8F] →
      f.length = 32 ∧
      (s.linkAnswers = [] → exec (.paintSingle addr P) s =
        .next { s with phase := .busy (.writing .keepLink [f]) }) ∧
      (∀ as, s.linkAnswers = .done :: as → exec (.paintSingle addr P) s =
        .next { s with
          linkAnswers := as, wire := s.wire ++ f
          writeLog := s.writeLog ++ [{ requested := f, emitted := 32, ok := true }]
          transit := s.transit ++ [.whole f]
          status := .ok, phase := .idle, responses := s.responses ++ [.ok] }) ∧
      (∀ k as, s.linkAnswers = .fail k :: as → exec (.paintSingle addr P) s =
        .next { s with
          linkAnswers := as, wire := s.wire ++ f.take k
          writeLog := s.writeLog ++ [{ requested := f, emitted := min k 32, ok := false }]
          transit := if k = 0 then s.transit else s.transit ++ [.cut (f.take k)]
          status := .io, phase := .idle, responses := s.responses ++ [.io] }))

/-- R44, R46, R104 to R107: PAINT_DUAL in every case. Both writes answered Done append 64 bytes, top frame first; a failing first
write ends with IO and the second is not attempted; a failing second write leaves the whole top frame and a prefix of the
bottom frame. The model's own are: a k above 32 (notes/assumptions/4.md), the bytes on the link (`transit`, 9.md, 24.md),
and the cut of the command into steps at a wait (1.md). -/
def Obligations.PaintDualInEveryCase : Prop :=
  ∀ (top bottom : Byte) (P : PixelOperand) (s : State),
    (∀ (w : CmdWord) (raw : List Byte), w &&& 0xFFFF0000 = 0x11000000 →
      decode (.command { word := w, pix := P, raw := raw }) =
        .ok (.paintDual (w.extractLsb' 0 8) (w.extractLsb' 8 8) P)) ∧
    (s.linkState = .closed → exec (.paintDual top bottom P) s =
      .next { s with status := .notOpen, phase := .idle, responses := s.responses ++ [.notOpen] }) ∧
    (s.linkState = .opened → (P.rows ≠ 14 ∨ P.cols ≠ 28) → exec (.paintDual top bottom P) s =
      .next { s with status := .shape, phase := .idle, responses := s.responses ++ [.shape] }) ∧
    (s.linkState = .opened → HasBadCell P 14 28 → exec (.paintDual top bottom P) s =
      .next { s with status := .valueDomain, phase := .idle, responses := s.responses ++ [.valueDomain] }) ∧
    (s.linkState = .opened → IsBuffer P 14 28 →
      ∀ f g, f = [0x80, 0x83, top] ++ encodePanel (splitDual P).1 ++ [0x8F] →
        g = [0x80, 0x83, bottom] ++ encodePanel (splitDual P).2 ++ [0x8F] →
      f.length = 32 ∧ g.length = 32 ∧
      (s.linkAnswers = [] → exec (.paintDual top bottom P) s =
        .next { s with phase := .busy (.writing .keepLink [f, g]) }) ∧
      (∀ k as, s.linkAnswers = .fail k :: as → exec (.paintDual top bottom P) s =
        .next { s with
          linkAnswers := as, wire := s.wire ++ f.take k
          writeLog := s.writeLog ++ [{ requested := f, emitted := min k 32, ok := false }]
          transit := if k = 0 then s.transit else s.transit ++ [.cut (f.take k)]
          status := .io, phase := .idle, responses := s.responses ++ [.io] }) ∧
      (s.linkAnswers = [.done] → exec (.paintDual top bottom P) s =
        .next { s with
          linkAnswers := [], wire := s.wire ++ f
          writeLog := s.writeLog ++ [{ requested := f, emitted := 32, ok := true }]
          transit := s.transit ++ [.whole f]
          phase := .busy (.writing .keepLink [g]) }) ∧
      (∀ k as, s.linkAnswers = .done :: .fail k :: as → exec (.paintDual top bottom P) s =
        .next { s with
          linkAnswers := as, wire := s.wire ++ f ++ g.take k
          writeLog := s.writeLog ++ [{ requested := f, emitted := 32, ok := true },
            { requested := g, emitted := min k 32, ok := false }]
          transit := if k = 0 then s.transit ++ [.whole f] else s.transit ++ [.whole f, .cut (g.take k)]
          status := .io, phase := .idle, responses := s.responses ++ [.io] }) ∧
      (∀ as, s.linkAnswers = .done :: .done :: as → exec (.paintDual top bottom P) s =
        .next { s with
          linkAnswers := as, wire := s.wire ++ f ++ g
          writeLog := s.writeLog ++ [{ requested := f, emitted := 32, ok := true },
            { requested := g, emitted := 32, ok := true }]
          transit := s.transit ++ [.whole f, .whole g]
          status := .ok, phase := .idle, responses := s.responses ++ [.ok] }))

/-- R108: PAINT_DUAL_DEFAULT is its word, is PAINT_DUAL to TOP_ADDR and BOTTOM_ADDR in every state, and, with both writes
answered Done, emits the top frame to TOP_ADDR and the bottom frame to BOTTOM_ADDR and ends with OK. The bytes on the link
(`transit`) are the model's own (notes/assumptions/9.md). -/
def Obligations.PaintDualDefaultUsesTheConstructionAddresses : Prop :=
  ∀ (P : PixelOperand) (s : State),
    (∀ raw, decode (.command { word := 0x11800000, pix := P, raw := raw }) = .ok (.paintDualDefault P)) ∧
    exec (.paintDualDefault P) s = exec (.paintDual s.topAddr s.bottomAddr P) s ∧
    (s.linkState = .opened → IsBuffer P 14 28 → ∀ as, s.linkAnswers = .done :: .done :: as →
      ∀ f g, f = [0x80, 0x83, s.topAddr] ++ encodePanel (splitDual P).1 ++ [0x8F] →
        g = [0x80, 0x83, s.bottomAddr] ++ encodePanel (splitDual P).2 ++ [0x8F] →
      exec (.paintDualDefault P) s =
        .next { s with
          linkAnswers := as, wire := s.wire ++ f ++ g
          writeLog := s.writeLog ++ [{ requested := f, emitted := 32, ok := true },
            { requested := g, emitted := 32, ok := true }]
          transit := s.transit ++ [.whole f, .whole g]
          status := .ok, phase := .idle, responses := s.responses ++ [.ok] })

/-- R44, R46, R120 to R123: OPEN in every case: its encoding; ALREADY_OPEN changes nothing else; the wait for PLATFORM, with the
addresses written; CONNECTION; the waits for LINK; IO in either blank frame, which releases the link and keeps the bytes
and the addresses; and the successful OPEN, 64 bytes of two blank frames. That the link is released is the spec's own
reading of a failed construction (R121, D11). The model's own are: a k above 32 (notes/assumptions/4.md), the bytes on the
link (`transit`, 9.md, 24.md), the cut of the command into steps at a wait (1.md), and the request that the wait for
PLATFORM holds (15.md). -/
def Obligations.OpenInEveryCase : Prop :=
  ∀ (top bottom : Byte) (s : State),
    (∀ (w : CmdWord) (P : PixelOperand) (raw : List Byte), w &&& 0xFFFF0000 = 0x01000000 →
      decode (.command { word := w, pix := P, raw := raw }) =
        .ok (.openLink (w.extractLsb' 0 8) (w.extractLsb' 8 8))) ∧
    (s.linkState = .opened → exec (.openLink top bottom) s =
      .next { s with status := .alreadyOpen, phase := .idle, responses := s.responses ++ [.alreadyOpen] }) ∧
    (s.linkState = .closed →
      (s.portAnswers = [] → exec (.openLink top bottom) s =
        .next { s with
          topAddr := top, bottomAddr := bottom, phase := .busy (.opening Config.openRequest) }) ∧
      (∀ ps, s.portAnswers = .fail :: ps → exec (.openLink top bottom) s =
        .next { s with
          topAddr := top, bottomAddr := bottom, portAnswers := ps
          status := .connection, phase := .idle, responses := s.responses ++ [.connection] }) ∧
      (∀ ps, s.portAnswers = .ok :: ps →
        ∀ f g, f = [0x80, 0x83, top] ++ List.replicate 28 0x00 ++ [0x8F] →
          g = [0x80, 0x83, bottom] ++ List.replicate 28 0x00 ++ [0x8F] →
        (s.linkAnswers = [] → exec (.openLink top bottom) s =
          .next { s with
            topAddr := top, bottomAddr := bottom, portAnswers := ps, linkState := .opened
            phase := .busy (.writing .releaseLink [f, g]) }) ∧
        (∀ k as, s.linkAnswers = .fail k :: as → exec (.openLink top bottom) s =
          .next { s with
            topAddr := top, bottomAddr := bottom, portAnswers := ps, linkAnswers := as
            wire := s.wire ++ f.take k
            writeLog := s.writeLog ++ [{ requested := f, emitted := min k 32, ok := false }]
            transit := if k = 0 then s.transit else s.transit ++ [.cut (f.take k)]
            linkState := .closed
            status := .io, phase := .idle, responses := s.responses ++ [.io] }) ∧
        (s.linkAnswers = [.done] → exec (.openLink top bottom) s =
          .next { s with
            topAddr := top, bottomAddr := bottom, portAnswers := ps, linkAnswers := [], linkState := .opened
            wire := s.wire ++ f
            writeLog := s.writeLog ++ [{ requested := f, emitted := 32, ok := true }]
            transit := s.transit ++ [.whole f]
            phase := .busy (.writing .releaseLink [g]) }) ∧
        (∀ k as, s.linkAnswers = .done :: .fail k :: as → exec (.openLink top bottom) s =
          .next { s with
            topAddr := top, bottomAddr := bottom, portAnswers := ps, linkAnswers := as
            wire := s.wire ++ f ++ g.take k
            writeLog := s.writeLog ++ [{ requested := f, emitted := 32, ok := true },
              { requested := g, emitted := min k 32, ok := false }]
            transit := if k = 0 then s.transit ++ [.whole f] else s.transit ++ [.whole f, .cut (g.take k)]
            linkState := .closed
            status := .io, phase := .idle, responses := s.responses ++ [.io] }) ∧
        (∀ as, s.linkAnswers = .done :: .done :: as → exec (.openLink top bottom) s =
          .next { s with
            topAddr := top, bottomAddr := bottom, portAnswers := ps, linkAnswers := as, linkState := .opened
            wire := s.wire ++ f ++ g
            writeLog := s.writeLog ++ [{ requested := f, emitted := 32, ok := true },
              { requested := g, emitted := 32, ok := true }]
            transit := s.transit ++ [.whole f, .whole g]
            status := .ok, phase := .idle, responses := s.responses ++ [.ok] })))

/-- R124, D9: CLOSE is its word; on an open link it releases the link, ends with OK and changes nothing else: no byte, no
address; on a closed link it ends with NOT_OPEN and changes nothing else. In the state it leaves, every paint and SEND_RAW
ends with NOT_OPEN and changes nothing else. That D9 is followed on a closed link, against the OK of R124, R131, R163 and
V-LINK-8, is DEDUCED (notes/assumptions/7.md). -/
def Obligations.CloseReleasesTheLink : Prop :=
  (∀ (P : PixelOperand) (raw : List Byte),
    decode (.command { word := 0x02000000, pix := P, raw := raw }) = .ok .closeLink) ∧
  (∀ s : State, s.linkState = .opened → exec .closeLink s =
    .next { s with linkState := .closed, status := .ok, phase := .idle, responses := s.responses ++ [.ok] }) ∧
  (∀ s : State, s.linkState = .closed → exec .closeLink s =
    .next { s with status := .notOpen, phase := .idle, responses := s.responses ++ [.notOpen] }) ∧
  (∀ (s t : State) (addr top bottom : Byte) (P : PixelOperand) (raw : List Byte), exec .closeLink s = .next t →
    ∀ i ∈ [Instr.paintSingle addr P, .paintDual top bottom P, .paintDualDefault P, .sendRaw raw],
      exec i t = .next { t with status := .notOpen, phase := .idle, responses := t.responses ++ [.notOpen] })

/-- R44, R46, R127, R129: SEND_RAW in every case: its encoding; NOT_OPEN; the wait for LINK; Done, the operand as it is, of any
length, with one record; Fail(k), its first k bytes and IO. An empty operand makes one record and no byte. The model's own
are: a k above the length (notes/assumptions/4.md), the bytes on the link (`transit`, to which a write of no bytes adds
nothing, 9.md, 24.md), and the cut of the command into steps at a wait (1.md). -/
def Obligations.SendRawInEveryCase : Prop :=
  ∀ (raw : List Byte) (s : State),
    (∀ P, decode (.command { word := 0x20000000, pix := P, raw := raw }) = .ok (.sendRaw raw)) ∧
    (s.linkState = .closed → exec (.sendRaw raw) s =
      .next { s with status := .notOpen, phase := .idle, responses := s.responses ++ [.notOpen] }) ∧
    (s.linkState = .opened → s.linkAnswers = [] → exec (.sendRaw raw) s =
      .next { s with phase := .busy (.writing .keepLink [raw]) }) ∧
    (s.linkState = .opened → ∀ as, s.linkAnswers = .done :: as → exec (.sendRaw raw) s =
      .next { s with
        linkAnswers := as, wire := s.wire ++ raw
        writeLog := s.writeLog ++ [{ requested := raw, emitted := raw.length, ok := true }]
        transit := if raw = [] then s.transit else s.transit ++ [.whole raw]
        status := .ok, phase := .idle, responses := s.responses ++ [.ok] }) ∧
    (s.linkState = .opened → ∀ k as, s.linkAnswers = .fail k :: as → exec (.sendRaw raw) s =
      .next { s with
        linkAnswers := as, wire := s.wire ++ raw.take k
        writeLog := s.writeLog ++ [{ requested := raw, emitted := min k raw.length, ok := false }]
        transit := if raw.take k = [] then s.transit else s.transit ++ [.cut (raw.take k)]
        status := .io, phase := .idle, responses := s.responses ++ [.io] })

/-! ### The whole machine -/

/-- R203: where PLATFORM and LINK answer (LINK_ANSWERS, PLATFORM_ANSWERS), every command of the ENCODER ends: PHASE is
IDLE and the HOST has one response more. -/
def Obligations.AnsweredCommandsEnd : Prop :=
  ∀ (c : Command) (i : Instr) (s : State), decode (.command c) = .ok i → 2 ≤ s.linkAnswers.length →
    1 ≤ s.portAnswers.length →
    ∃ t code, exec i s = .next t ∧ t.phase = .idle ∧ t.status = code ∧ t.responses = s.responses ++ [code]

/-- R46, R57, R122: when the answers of LINK or of PLATFORM come makes no difference: a command that waits and goes on
when they come ends as it does when the same answers had come before. -/
def Obligations.LateAnswersChangeNothing : Prop :=
  ∀ (i : Instr) (s t : State), s.phase = .idle → exec i s = .next t →
    (∀ (as : List LinkAnswer) (u : State), exec i (s.linkReplies as) = .next u →
      u = match t.phase with
        | .idle => t.linkReplies as
        | .busy p => resume p (t.linkReplies as)) ∧
    (∀ (ps : List PortAnswer) (u : State), exec i (s.platformReplies ps) = .next u →
      u = match t.phase with
        | .idle => t.platformReplies ps
        | .busy p => resume p (t.platformReplies ps))

/-- R20, R26, R43: no command reads WIRE, WRITE_LOG, STATUS or an earlier response: from two states that differ only in
these (and on the panels' side), it makes the same writes, the same records and the same response. -/
def Obligations.NoCommandReadsTheRecord : Prop :=
  ∀ (i : Instr) (s s' t t' : State), s.sameInputs s' → exec i s = .next t → exec i s' = .next t' →
    t.sameInputs t' ∧
    ∃ (w : List Byte) (l : List WriteRecord) (r : List Code),
      t.wire = s.wire ++ w ∧ t'.wire = s'.wire ++ w ∧ t.writeLog = s.writeLog ++ l ∧ t'.writeLog = s'.writeLog ++ l ∧
      t.responses = s.responses ++ r ∧ t'.responses = s'.responses ++ r ∧ (r ≠ [] → t.status = t'.status)

/-- R34, R206: the panels never act back on the block: with any other panels on the link, a command does the same, and
leaves the panels as they are. -/
def Obligations.PanelsNeverAffectACommand : Prop :=
  ∀ (c : Command) (i : Instr) (s : State) (ps : List Panel), decode (.command c) = .ok i →
    ∃ t, exec i s = .next t ∧ t.panels = s.panels ∧ exec i { s with panels := ps } = .next { t with panels := ps }

/-- R35: TOP_ADDR and BOTTOM_ADDR at power-on are unobservable until OPEN writes them: two runs of any length that start
IDLE on a closed link and differ only in them agree in everything else, and wholly once the link is open. -/
def Obligations.PowerOnAddressesAreUnobservable : Prop :=
  ∀ (n : Nat) (s t : State) (top bottom : Byte), s.phase = .idle → s.linkState = .closed →
    Sys2Proof.core.run n s = .next t →
    ∃ t', Sys2Proof.core.run n { s with topAddr := top, bottomAddr := bottom } = .next t' ∧
      { t' with topAddr := t.topAddr, bottomAddr := t.bottomAddr } = t ∧
      (t.linkState = .opened → t' = t)

/-! ### Frames and panels (43_wire_frames.md) -/

/-- R144 on each of the three frames: a whole frame whose data bytes have bit 7 clear reaches exactly the panels that
accept its address (broadcast 0xFF, or their DIP_VALUE), once, and changes nothing else; with a data byte above 0x7F its
bytes reach every panel as bytes of which nothing is assumed (R74, R147). That reception is the frames' execution, and the
form of the second case, are the model's choices (notes/assumptions/8.md, 11.md). -/
def Obligations.FramesReachTheAcceptingPanels : Prop :=
  ∀ (addr : Byte) (data : List Byte) (mode : FrameMode) (i : Instr) (s : State),
    (mode = .refresh ∧ i = .frameRefresh addr data) ∨ (mode = .dataRefresh ∧ i = .frameDataRefresh addr data) ∨
      (mode = .dataNoRefresh ∧ i = .frameDataNoRefresh addr data) →
    ((∀ b ∈ data, b.toNat ≤ 0x7F) → exec i s =
      .next { s with
        panels := s.panels.map fun p =>
          if addr = 0xFF ∨ addr = dipValue p.switches then
            { p with heard := p.heard ++ [.frame { mode := mode, addr := addr, data := data }] } else p }) ∧
    ((∃ b ∈ data, 0x7F < b.toNat) → exec i s =
      .next { s with
        panels := s.panels.map fun p =>
          { p with heard := p.heard ++ [.stray ([0x80, mode.byte, addr] ++ data ++ [0x8F])] } })

/-- R11, R144: DIP_MAP is a bijection, so the switch settings and the 256 addresses correspond one to one, whatever the
mapping is; `switchesFor v` is the setting of address v. -/
def Obligations.EveryAddressIsOneSwitchSetting : Prop :=
  Function.Bijective dipValue ∧ ∀ v : Byte, dipValue (switchesFor v) = v

/-- R145, R146: a standard data+refresh frame asks an accepting panel for dot bit k of data byte c, at every row k of
0..6 and column c of 0..27. -/
def Obligations.StandardFrameAsksForItsDots : Prop :=
  ∀ (addr : Byte) (d : List Byte) (p : Panel), d.length = 28 → (∀ b ∈ d, b.toNat ≤ 0x7F) → p.accepts addr = true →
    (∀ h ∈ p.heard, h.isStray = false) →
    ∀ k < 7, ∀ c < 28,
      (p.hear { mode := .dataRefresh, addr := addr, data := d }).asked k c = some ((d.getD c 0).getLsbD k)

/-- R147: a refresh-only or data+no-refresh frame, a frame of another length or with bit 7 set in a data byte, and any
frame after stray bytes ask for no dot. The form, no dot asked, is the model's (notes/assumptions/10.md). -/
def Obligations.OpenFramesAskForNothing : Prop :=
  (∀ f : Frame, (f.mode ≠ .dataRefresh ∨ f.data.length ≠ 28 ∨ ∃ b ∈ f.data, 0x7F < b.toNat) →
    ∀ k c, f.asks k c = none) ∧
  (∀ (p : Panel) (b : List Byte) (fs : List Frame), ∀ k c,
    (fs.foldl (fun q f => q.hear f) (p.hearStray b)).asked k c = none)

/-- R74, R200, R204: a paint frame cut short is no frame, whatever proper prefix is on the link, and the bytes of a failed
write are none even where all 32 were emitted (R105, R200; notes/assumptions/24.md). What a panel makes of them is left open
(R147, R204); that they reach every panel, in one step, as stray bytes is the model's choice (9.md, 11.md). -/
def Obligations.CutPaintFramesAreStray : Prop :=
  ∀ (addr : Byte) (P : PixelOperand) (k : Nat) (s : State) (x : Sent) (xs : List Sent), IsBuffer P 7 28 → 0 < k →
    (x = .whole ((paintFrame addr P).take k) ∧ k < 32) ∨ (x = .cut ((paintFrame addr P).take k) ∧ k ≤ 32) →
    s.transit = x :: xs →
    step s = .next { s with
      transit := xs
      panels := s.panels.map fun p => { p with heard := p.heard ++ [.stray ((paintFrame addr P).take k)] } }

/-- R70, R72, R147: the bytes that are a whole frame are exactly those of the layout with one of the three modes. All other
bytes, such as a SEND_RAW without header or terminator or with another mode, and all bytes of a failed write (R200, R204;
notes/assumptions/24.md), reach every panel as stray bytes, in one step, and change nothing else: what a panel makes of them
is left open, and this form is the model's choice (9.md, 11.md). -/
def Obligations.BytesThatAreNoFrameAreStray : Prop :=
  (∀ b : List Byte, (∃ i, decode (.frame b) = .ok i) ↔
    ∃ (mode : FrameMode) (addr : Byte) (data : List Byte), b = [0x80, mode.byte, addr] ++ data ++ [0x8F]) ∧
  (∀ (b : List Byte) (x : Sent) (xs : List Sent) (s : State),
    (x = .whole b ∧ ∃ e, decode (.frame b) = .error e) ∨ x = .cut b → s.transit = x :: xs →
    step s = .next { s with
      transit := xs, panels := s.panels.map fun p => { p with heard := p.heard ++ [.stray b] } })

/-- R148: paints leave a stream that can be parsed back. If WIRE parses to some frames, then after a successful
PAINT_SINGLE, PAINT_DUAL, PAINT_DUAL_DEFAULT or OPEN it parses to those and the new addresses and pixels. -/
def Obligations.PaintedWireParsesBack : Prop :=
  ∀ (s t : State) (fs : List (Byte × List (List Nat))) (as : List LinkAnswer), parseWire s.wire = some fs →
    (∀ addr P, s.linkState = .opened → IsBuffer P 7 28 → s.linkAnswers = .done :: as →
      exec (.paintSingle addr P) s = .next t → parseWire t.wire = some (fs ++ [(addr, panelColumns P)])) ∧
    (∀ top bottom P, s.linkState = .opened → IsBuffer P 14 28 → s.linkAnswers = .done :: .done :: as →
      exec (.paintDual top bottom P) s = .next t → parseWire t.wire =
        some (fs ++ [(top, panelColumns (splitDual P).1), (bottom, panelColumns (splitDual P).2)])) ∧
    (∀ P, s.linkState = .opened → IsBuffer P 14 28 → s.linkAnswers = .done :: .done :: as →
      exec (.paintDualDefault P) s = .next t → parseWire t.wire =
        some (fs ++ [(s.topAddr, panelColumns (splitDual P).1), (s.bottomAddr, panelColumns (splitDual P).2)])) ∧
    (∀ top bottom ps, s.linkState = .closed → s.portAnswers = .ok :: ps → s.linkAnswers = .done :: .done :: as →
      exec (.openLink top bottom) s = .next t → parseWire t.wire =
        some (fs ++ [(top, List.replicate 28 (List.replicate 7 0)), (bottom, List.replicate 28 (List.replicate 7 0))]))

/-- R149 for PAINT_SINGLE: after a successful paint and the reception of its frame, every panel that accepts the address
is asked for dot (k, c) exactly when P.cell(k, c) = 1, and every other panel is as it was. The reception as a step
(notes/assumptions/8.md, 9.md) and the premise that no stray bytes came before (10.md) are the model's choices. -/
def Obligations.PaintSingleReachesThePanels : Prop :=
  ∀ (addr : Byte) (P : PixelOperand) (s : State) (as : List LinkAnswer), s.linkState = .opened → IsBuffer P 7 28 →
    s.linkAnswers = .done :: as → s.transit = [] →
    ∃ t u, exec (.paintSingle addr P) s = .next t ∧ step t = .next u ∧ u.transit = [] ∧
      List.Forall₂ (fun p q : Panel =>
        (p.accepts addr = false → q = p) ∧
        (p.accepts addr = true → (∀ h ∈ p.heard, h.isStray = false) →
          ∀ k < 7, ∀ c < 28, q.asked k c = some (P.cell k c == 1))) s.panels u.panels

/-- R149 for PAINT_DUAL: after a successful paint and the reception of its two frames, a panel that accepts the bottom
address is asked for display rows 7..13, a panel that accepts only the top address for rows 0..6, a panel that accepts
both has received the top frame and then the bottom frame, and every other panel is as it was. The receptions as steps
(notes/assumptions/8.md, 9.md) and the premise that no stray bytes came before (10.md) are the model's choices. -/
def Obligations.PaintDualReachesThePanels : Prop :=
  ∀ (top bottom : Byte) (P : PixelOperand) (s : State) (as : List LinkAnswer), s.linkState = .opened →
    IsBuffer P 14 28 → s.linkAnswers = .done :: .done :: as → s.transit = [] →
    ∃ t u v, exec (.paintDual top bottom P) s = .next t ∧ step t = .next u ∧ step u = .next v ∧ v.transit = [] ∧
      List.Forall₂ (fun p q : Panel =>
        (p.accepts top = false → p.accepts bottom = false → q = p) ∧
        (p.accepts top = true → p.accepts bottom = true → q.heard = p.heard ++
          [.frame { mode := .dataRefresh, addr := top, data := encodePanel (splitDual P).1 },
           .frame { mode := .dataRefresh, addr := bottom, data := encodePanel (splitDual P).2 }]) ∧
        ((∀ h ∈ p.heard, h.isStray = false) → ∀ k < 7, ∀ c < 28,
          (p.accepts bottom = true → q.asked k c = some (P.cell (k + 7) c == 1)) ∧
          (p.accepts top = true → p.accepts bottom = false → q.asked k c = some (P.cell k c == 1))))
        s.panels v.panels

/-- R192, R123: after a successful OPEN and the reception of its two blank frames, every panel that accepts TOP_ADDR or
BOTTOM_ADDR is asked to hide every dot, and every other panel is as it was. The receptions as steps
(notes/assumptions/8.md, 9.md) and the premise that no stray bytes came before (10.md) are the model's choices. -/
def Obligations.OpenBlanksTheAcceptingPanels : Prop :=
  ∀ (top bottom : Byte) (s : State) (ps : List PortAnswer) (as : List LinkAnswer), s.linkState = .closed →
    s.portAnswers = .ok :: ps → s.linkAnswers = .done :: .done :: as → s.transit = [] →
    ∃ t u v, exec (.openLink top bottom) s = .next t ∧ step t = .next u ∧ step u = .next v ∧ v.transit = [] ∧
      v.topAddr = top ∧ v.bottomAddr = bottom ∧
      List.Forall₂ (fun p q : Panel =>
        (p.accepts v.topAddr = false → p.accepts v.bottomAddr = false → q = p) ∧
        ((p.accepts v.topAddr = true ∨ p.accepts v.bottomAddr = true) → (∀ h ∈ p.heard, h.isStray = false) →
          ∀ k < 7, ∀ c < 28, q.asked k c = some false)) s.panels v.panels

/-- R105, R200: after IO in the second write of PAINT_DUAL, cut at any count, the top panel has its new frame and no panel
has the bottom frame: each panel that accepts the top address has received the top frame, and beyond it only stray bytes,
the prefix of the bottom frame if it is not empty. PAINT_DUAL_DEFAULT is PAINT_DUAL to TOP_ADDR and BOTTOM_ADDR (R108). The
receptions as steps, and the prefix as stray bytes at every panel, are the model's choices (notes/assumptions/8.md, 9.md,
11.md, 24.md). -/
def Obligations.FailedSecondWriteLeavesTheBottomStale : Prop :=
  ∀ (top bottom : Byte) (P : PixelOperand) (s : State) (k : Nat) (as : List LinkAnswer), s.linkState = .opened →
    IsBuffer P 14 28 → s.linkAnswers = .done :: .fail k :: as → s.transit = [] →
    ∃ t u v, exec (.paintDual top bottom P) s = .next t ∧ t.status = .io ∧ step t = .next u ∧
      (k = 0 → v = u) ∧ (k ≠ 0 → step u = .next v) ∧ v.transit = [] ∧
      List.Forall₂ (fun p q : Panel =>
        q.switches = p.switches ∧
        q.heard = p.heard ++
          (if p.accepts top then
            [.frame { mode := .dataRefresh, addr := top, data := encodePanel (splitDual P).1 }] else []) ++
          (if k = 0 then [] else [.stray ((paintFrame bottom (splitDual P).2).take k)])) s.panels v.panels
end

