-- ==== Sys2Proof/Laws/Decode.lean ====
section
/-! SUPPORT. The fields of a packed word, a word from its fields, and the two ends of a frame. -/

namespace Sys2Proof

/-- The bits of a packed word, field by field (R65). -/
theorem getLsbD_packFields (op : Byte) (d : BitVec 1) (rsv : BitVec 7) (b a : Byte) (i : Nat) :
    (packFields op d rsv b a).getLsbD i =
      if i < 8 then a.getLsbD i else if i < 16 then b.getLsbD (i - 8) else if i < 23 then rsv.getLsbD (i - 16)
      else if i < 24 then d.getLsbD (i - 23) else op.getLsbD (i - 24) := by
  simp only [packFields, BitVec.getLsbD_append, Nat.sub_sub]
  split_ifs <;> first | rfl | omega

@[simp] theorem opField_packFields (op : Byte) (d : BitVec 1) (rsv : BitVec 7) (b a : Byte) :
    opField (packFields op d rsv b a) = op := by
  ext i hi
  rw [opField, BitVec.getElem_extractLsb', getLsbD_packFields, if_neg (by omega), if_neg (by omega), if_neg (by omega),
    if_neg (by omega), Nat.add_sub_cancel_left, BitVec.getLsbD_eq_getElem]

@[simp] theorem dField_packFields (op : Byte) (d : BitVec 1) (rsv : BitVec 7) (b a : Byte) :
    dField (packFields op d rsv b a) = d := by
  ext i hi
  rw [dField, BitVec.getElem_extractLsb', getLsbD_packFields, if_neg (by omega), if_neg (by omega), if_neg (by omega),
    if_pos (by omega), Nat.add_sub_cancel_left, BitVec.getLsbD_eq_getElem]

@[simp] theorem rsvField_packFields (op : Byte) (d : BitVec 1) (rsv : BitVec 7) (b a : Byte) :
    rsvField (packFields op d rsv b a) = rsv := by
  ext i hi
  rw [rsvField, BitVec.getElem_extractLsb', getLsbD_packFields, if_neg (by omega), if_neg (by omega),
    if_pos (by omega), Nat.add_sub_cancel_left, BitVec.getLsbD_eq_getElem]

@[simp] theorem bField_packFields (op : Byte) (d : BitVec 1) (rsv : BitVec 7) (b a : Byte) :
    bField (packFields op d rsv b a) = b := by
  ext i hi
  rw [bField, BitVec.getElem_extractLsb', getLsbD_packFields, if_neg (by omega), if_pos (by omega),
    Nat.add_sub_cancel_left, BitVec.getLsbD_eq_getElem]

@[simp] theorem aField_packFields (op : Byte) (d : BitVec 1) (rsv : BitVec 7) (b a : Byte) :
    aField (packFields op d rsv b a) = a := by
  ext i hi
  rw [aField, BitVec.getElem_extractLsb', getLsbD_packFields, if_pos (by omega), Nat.zero_add,
    BitVec.getLsbD_eq_getElem]

/-- A word is its fields (R65). -/
theorem packFields_fields (w : CmdWord) : packFields (opField w) (dField w) (rsvField w) (bField w) (aField w) = w := by
  ext i hi
  rw [← BitVec.getLsbD_eq_getElem, ← BitVec.getLsbD_eq_getElem, getLsbD_packFields]
  simp only [opField, dField, rsvField, bField, aField, BitVec.getLsbD_extractLsb']
  split_ifs with h1 h2 h3 h4
  · rw [Nat.zero_add, decide_eq_true h1, Bool.true_and]
  · rw [show 8 + (i - 8) = i by omega, decide_eq_true (by omega), Bool.true_and]
  · rw [show 16 + (i - 16) = i by omega, decide_eq_true (by omega), Bool.true_and]
  · rw [show 23 + (i - 23) = i by omega, decide_eq_true (by omega), Bool.true_and]
  · rw [show 24 + (i - 24) = i by omega, decide_eq_true (by omega), Bool.true_and]

/-- Two words with the same fields are the same word (R65). -/
theorem word_ext {v w : CmdWord} (ho : opField v = opField w) (hd : dField v = dField w)
    (hr : rsvField v = rsvField w) (hb : bField v = bField w) (ha : aField v = aField w) : v = w := by
  rw [← packFields_fields v, ← packFields_fields w, ho, hd, hr, hb, ha]

theorem packFields_inj {op op' : Byte} {d d' : BitVec 1} {rsv rsv' : BitVec 7} {b b' a a' : Byte} :
    packFields op d rsv b a = packFields op' d' rsv' b' a' ↔ op = op' ∧ d = d' ∧ rsv = rsv' ∧ b = b' ∧ a = a' := by
  refine ⟨fun h => ⟨?_, ?_, ?_, ?_, ?_⟩, ?_⟩
  · simpa using congrArg opField h
  · simpa using congrArg dField h
  · simpa using congrArg rsvField h
  · simpa using congrArg bField h
  · simpa using congrArg aField h
  · rintro ⟨rfl, rfl, rfl, rfl, rfl⟩; rfl

/-- A mask acts on each field by itself (R66). -/
theorem packFields_and (op op' : Byte) (d d' : BitVec 1) (rsv rsv' : BitVec 7) (b b' a a' : Byte) :
    packFields op d rsv b a &&& packFields op' d' rsv' b' a' =
      packFields (op &&& op') (d &&& d') (rsv &&& rsv') (b &&& b') (a &&& a') := by
  ext i hi
  rw [← BitVec.getLsbD_eq_getElem, ← BitVec.getLsbD_eq_getElem, BitVec.getLsbD_and]
  simp only [getLsbD_packFields]
  split_ifs <;> simp only [BitVec.getLsbD_and]

/-- R66's match and mask, field by field: a word meets a row whose mask and pattern are packed from fields exactly when
each of its fields does. -/
theorem masked_eq_iff (w : CmdWord) (mo md mr mb ma po pd pr pb pa) :
    w &&& packFields mo md mr mb ma = packFields po pd pr pb pa ↔
      opField w &&& mo = po ∧ dField w &&& md = pd ∧ rsvField w &&& mr = pr ∧ bField w &&& mb = pb ∧
      aField w &&& ma = pa := by
  conv_lhs => rw [← packFields_fields w, packFields_and]
  exact packFields_inj

@[simp] theorem ofByte_byte (m : FrameMode) : FrameMode.ofByte? m.byte = some m := by cases m <;> rfl

theorem byte_of_ofByte {b : Byte} {m : FrameMode} (h : FrameMode.ofByte? b = some m) : b = m.byte := by
  unfold FrameMode.ofByte? at h
  split_ifs at h with h1 h2 h3 <;> cases h <;> assumption

/-- Reading the bytes of a frame is reading its parts (R70). -/
@[simp] theorem decodeFrame_frameBytes (m a : Byte) (data : List Byte) :
    decodeFrame (frameBytes m a data) = decodeParts m a data := by
  simp [decodeFrame, frameBytes]

/-- `decodeTableWord` is the decoder on what the table's bits stand for. -/
theorem decodeTableWord_eq (nbits w : Nat) : decodeTableWord nbits w = (decode (tableEncoded nbits w)).toOption := by
  unfold decodeTableWord tableEncoded
  split
  · simp [decode]
  · rfl

theorem decode_of_decodeTableWord {nbits w : Nat} {i : Instr} (h : decodeTableWord nbits w = some i) :
    decode (tableEncoded nbits w) = .ok i := by
  rw [decodeTableWord_eq] at h
  cases hd : decode (tableEncoded nbits w) with
  | ok j => rw [hd] at h; cases h; rfl
  | error e => rw [hd] at h; cases h

/-- The decoder accepts the bytes of a frame built from a mode, and nothing else (R70, R72). -/
theorem decodeFrame_ok {b : List Byte} {i : Instr} (h : decodeFrame b = .ok i) :
    ∃ f : Frame, i = f.instr ∧ b = frameBytes f.mode.byte f.addr f.data := by
  unfold decodeFrame decodeParts at h
  split at h
  · rename_i hd m a rest
    split_ifs at h with h1
    split at h
    · cases h
    · rename_i z hz
      split_ifs at h with h2
      split at h
      · cases h
      · rename_i mode hm
        cases h
        refine ⟨_, rfl, ?_⟩
        rw [frameBytes, ← byte_of_ofByte hm, ← not_not.1 h1, ← not_not.1 h2, List.append_assoc,
          List.dropLast_append_getLast? _ (by simpa using hz)]
        rfl
  · cases h

end Sys2Proof
end

