-- ==== Sys2Proof/Laws/Operands.lean ====
section
/-! SUPPORT. The datapath's small lemmas: cells of a computed operand, lengths, bytes of a frame. -/

namespace Sys2Proof

@[simp] theorem rows_ofFn (R C : Nat) (f : Nat → Nat → Nat) : (PixelOperand.ofFn R C f).rows = R := rfl
@[simp] theorem cols_ofFn (R C : Nat) (f : Nat → Nat → Nat) : (PixelOperand.ofFn R C f).cols = C := rfl

theorem cell_ofFn (R C : Nat) (f : Nat → Nat → Nat) {r c : Nat} (hr : r < R) (hc : c < C) :
    (PixelOperand.ofFn R C f).cell r c = f r c := by
  simp [PixelOperand.ofFn, PixelOperand.cell, List.getD, hr, hc]

theorem wf_ofFn (R C : Nat) (f : Nat → Nat → Nat) : (PixelOperand.ofFn R C f).wf = true := by
  simp [PixelOperand.wf, PixelOperand.ofFn]

@[simp] theorem length_frameBytes (m a : Byte) (d : List Byte) : (frameBytes m a d).length = d.length + 4 := by
  simp [frameBytes]

namespace Machine

/-- A computed operand with binary cells is a buffer of its shape (R100, R104). -/
theorem isBuffer_ofFn (R C : Nat) (f : Nat → Nat → Nat) (h : ∀ r c, f r c = 0 ∨ f r c = 1) :
    IsBuffer (PixelOperand.ofFn R C f) R C :=
  ⟨rfl, rfl, fun r hr c hc => by rw [cell_ofFn R C f hr hc]; exact h r c⟩

/-- A computed operand with one bad cell is the case of VALUE_DOMAIN (R83). -/
theorem hasBadCell_ofFn (R C : Nat) (f : Nat → Nat → Nat) (r c : Nat) (hr : r < R) (hc : c < C) (h0 : f r c ≠ 0)
    (h1 : f r c ≠ 1) : HasBadCell (PixelOperand.ofFn R C f) R C :=
  ⟨rfl, rfl, r, hr, c, hc, by rw [cell_ofFn R C f hr hc]; exact h0, by rw [cell_ofFn R C f hr hc]; exact h1⟩

/-- The column bytes of a binary panel need only its cells of each column (R82). -/
theorem panelColumn_eq (P : PixelOperand) (c : Nat) :
    panelColumn P c = [P.cell 0 c, P.cell 1 c, P.cell 2 c, P.cell 3 c, P.cell 4 c, P.cell 5 c, P.cell 6 c] := by
  simp [panelColumn, List.range_succ]

theorem panelColumn_binary {P : PixelOperand} (h : IsBuffer P 7 28) {c : Nat} (hc : c < 28) :
    ∀ v ∈ panelColumn P c, v = 0 ∨ v = 1 := by
  intro v hv
  simp only [panelColumn, List.mem_map, List.mem_range] at hv
  obtain ⟨r, hr, rfl⟩ := hv
  exact h.2.2 r hr c hc

/-- The halves of a dual buffer are panel buffers (R84). -/
theorem isBuffer_topHalf {P : PixelOperand} (h : IsBuffer P 14 28) : IsBuffer (topHalf P) 7 28 :=
  ⟨rfl, rfl, fun r hr c hc => by rw [topHalf, cell_ofFn _ _ _ hr hc]; exact h.2.2 r (by omega) c hc⟩

theorem isBuffer_bottomHalf {P : PixelOperand} (h : IsBuffer P 14 28) : IsBuffer (bottomHalf P) 7 28 :=
  ⟨rfl, rfl, fun r hr c hc => by rw [bottomHalf, cell_ofFn _ _ _ hr hc]; exact h.2.2 (r + 7) (by omega) c hc⟩

@[simp] theorem length_encodePanel (P : PixelOperand) : (encodePanel P).length = 28 := by simp [encodePanel]

@[simp] theorem length_paintFrame (a : Byte) (P : PixelOperand) : (paintFrame a P).length = 32 := by
  simp [paintFrame, buildFrame]

theorem paintFrame_ne_nil (a : Byte) (P : PixelOperand) : paintFrame a P ≠ [] := by
  simp [paintFrame, buildFrame, frameBytes]

/-- A whole paint frame reaches the panels as one delivery. -/
theorem sendToPanels_paintFrame (a : Byte) (P : PixelOperand) (q : List Sent) :
    sendToPanels (paintFrame a P) .done q = q ++ [.whole (paintFrame a P)] := by
  simp [sendToPanels, LinkAnswer.emitted, LinkAnswer.sent, paintFrame_ne_nil]

theorem encodePanel_getD (P : PixelOperand) {c : Nat} (h : c < 28) :
    (encodePanel P).getD c 0 = packColumn (panelColumn P c) := by
  simp [encodePanel, List.getD, h]

end Machine

end Sys2Proof
end

