-- ==== Sys2Proof/Laws/State.lean ====
section
/-! SUPPORT. One lemma per field per update of the state. -/

namespace Sys2Proof.Machine

@[simp] theorem raise_eq (c : Code) (s : State) : raise c s = endCommand c s := rfl
@[simp] theorem finish_eq (s : State) : finish s = endCommand .ok s := rfl
@[simp] theorem illegalCommand_eq (s : State) : illegalCommand s = endCommand .illegalCommand s := rfl

@[simp] theorem endCommand_phase (c : Code) (s : State) : (endCommand c s).phase = .idle := rfl
@[simp] theorem endCommand_linkState (c : Code) (s : State) : (endCommand c s).linkState = s.linkState := rfl
@[simp] theorem endCommand_topAddr (c : Code) (s : State) : (endCommand c s).topAddr = s.topAddr := rfl
@[simp] theorem endCommand_bottomAddr (c : Code) (s : State) : (endCommand c s).bottomAddr = s.bottomAddr := rfl
@[simp] theorem endCommand_status (c : Code) (s : State) : (endCommand c s).status = c := rfl
@[simp] theorem endCommand_wire (c : Code) (s : State) : (endCommand c s).wire = s.wire := rfl
@[simp] theorem endCommand_writeLog (c : Code) (s : State) : (endCommand c s).writeLog = s.writeLog := rfl
@[simp] theorem endCommand_responses (c : Code) (s : State) : (endCommand c s).responses = s.responses ++ [c] := rfl
@[simp] theorem endCommand_commands (c : Code) (s : State) : (endCommand c s).commands = s.commands := rfl
@[simp] theorem endCommand_linkAnswers (c : Code) (s : State) : (endCommand c s).linkAnswers = s.linkAnswers := rfl
@[simp] theorem endCommand_portAnswers (c : Code) (s : State) : (endCommand c s).portAnswers = s.portAnswers := rfl
@[simp] theorem endCommand_transit (c : Code) (s : State) : (endCommand c s).transit = s.transit := rfl
@[simp] theorem endCommand_panels (c : Code) (s : State) : (endCommand c s).panels = s.panels := rfl

@[simp] theorem waitIn_phase (p : Progress) (s : State) : (waitIn p s).phase = .busy p := rfl
@[simp] theorem waitIn_linkState (p : Progress) (s : State) : (waitIn p s).linkState = s.linkState := rfl
@[simp] theorem waitIn_topAddr (p : Progress) (s : State) : (waitIn p s).topAddr = s.topAddr := rfl
@[simp] theorem waitIn_bottomAddr (p : Progress) (s : State) : (waitIn p s).bottomAddr = s.bottomAddr := rfl
@[simp] theorem waitIn_status (p : Progress) (s : State) : (waitIn p s).status = s.status := rfl
@[simp] theorem waitIn_wire (p : Progress) (s : State) : (waitIn p s).wire = s.wire := rfl
@[simp] theorem waitIn_writeLog (p : Progress) (s : State) : (waitIn p s).writeLog = s.writeLog := rfl
@[simp] theorem waitIn_responses (p : Progress) (s : State) : (waitIn p s).responses = s.responses := rfl
@[simp] theorem waitIn_commands (p : Progress) (s : State) : (waitIn p s).commands = s.commands := rfl
@[simp] theorem waitIn_linkAnswers (p : Progress) (s : State) : (waitIn p s).linkAnswers = s.linkAnswers := rfl
@[simp] theorem waitIn_portAnswers (p : Progress) (s : State) : (waitIn p s).portAnswers = s.portAnswers := rfl
@[simp] theorem waitIn_transit (p : Progress) (s : State) : (waitIn p s).transit = s.transit := rfl
@[simp] theorem waitIn_panels (p : Progress) (s : State) : (waitIn p s).panels = s.panels := rfl

@[simp] theorem txWrite_phase (b : List Byte) (a : LinkAnswer) (s : State) : (txWrite b a s).phase = s.phase := rfl
@[simp] theorem txWrite_linkState (b : List Byte) (a : LinkAnswer) (s : State) : (txWrite b a s).linkState = s.linkState := rfl
@[simp] theorem txWrite_topAddr (b : List Byte) (a : LinkAnswer) (s : State) : (txWrite b a s).topAddr = s.topAddr := rfl
@[simp] theorem txWrite_bottomAddr (b : List Byte) (a : LinkAnswer) (s : State) : (txWrite b a s).bottomAddr = s.bottomAddr := rfl
@[simp] theorem txWrite_status (b : List Byte) (a : LinkAnswer) (s : State) : (txWrite b a s).status = s.status := rfl
@[simp] theorem txWrite_wire (b : List Byte) (a : LinkAnswer) (s : State) : (txWrite b a s).wire = s.wire ++ a.emitted b := rfl
@[simp] theorem txWrite_writeLog (b : List Byte) (a : LinkAnswer) (s : State) : (txWrite b a s).writeLog = s.writeLog ++ [writeRecord b a] := rfl
@[simp] theorem txWrite_responses (b : List Byte) (a : LinkAnswer) (s : State) : (txWrite b a s).responses = s.responses := rfl
@[simp] theorem txWrite_commands (b : List Byte) (a : LinkAnswer) (s : State) : (txWrite b a s).commands = s.commands := rfl
@[simp] theorem txWrite_linkAnswers (b : List Byte) (a : LinkAnswer) (s : State) : (txWrite b a s).linkAnswers = s.linkAnswers := rfl
@[simp] theorem txWrite_portAnswers (b : List Byte) (a : LinkAnswer) (s : State) : (txWrite b a s).portAnswers = s.portAnswers := rfl
@[simp] theorem txWrite_transit (b : List Byte) (a : LinkAnswer) (s : State) : (txWrite b a s).transit = sendToPanels b a s.transit := rfl
@[simp] theorem txWrite_panels (b : List Byte) (a : LinkAnswer) (s : State) : (txWrite b a s).panels = s.panels := rfl

@[simp] theorem receiveFrame_phase (f : Frame) (s : State) : (receiveFrame f s).phase = s.phase := rfl
@[simp] theorem receiveFrame_linkState (f : Frame) (s : State) : (receiveFrame f s).linkState = s.linkState := rfl
@[simp] theorem receiveFrame_topAddr (f : Frame) (s : State) : (receiveFrame f s).topAddr = s.topAddr := rfl
@[simp] theorem receiveFrame_bottomAddr (f : Frame) (s : State) : (receiveFrame f s).bottomAddr = s.bottomAddr := rfl
@[simp] theorem receiveFrame_status (f : Frame) (s : State) : (receiveFrame f s).status = s.status := rfl
@[simp] theorem receiveFrame_wire (f : Frame) (s : State) : (receiveFrame f s).wire = s.wire := rfl
@[simp] theorem receiveFrame_writeLog (f : Frame) (s : State) : (receiveFrame f s).writeLog = s.writeLog := rfl
@[simp] theorem receiveFrame_responses (f : Frame) (s : State) : (receiveFrame f s).responses = s.responses := rfl
@[simp] theorem receiveFrame_commands (f : Frame) (s : State) : (receiveFrame f s).commands = s.commands := rfl
@[simp] theorem receiveFrame_linkAnswers (f : Frame) (s : State) : (receiveFrame f s).linkAnswers = s.linkAnswers := rfl
@[simp] theorem receiveFrame_portAnswers (f : Frame) (s : State) : (receiveFrame f s).portAnswers = s.portAnswers := rfl
@[simp] theorem receiveFrame_transit (f : Frame) (s : State) : (receiveFrame f s).transit = s.transit := rfl
@[simp] theorem receiveFrame_panels (f : Frame) (s : State) : (receiveFrame f s).panels = s.panels.map (Panel.hear f) := rfl

@[simp] theorem receiveStray_phase (b : List Byte) (s : State) : (receiveStray b s).phase = s.phase := rfl
@[simp] theorem receiveStray_linkState (b : List Byte) (s : State) : (receiveStray b s).linkState = s.linkState := rfl
@[simp] theorem receiveStray_topAddr (b : List Byte) (s : State) : (receiveStray b s).topAddr = s.topAddr := rfl
@[simp] theorem receiveStray_bottomAddr (b : List Byte) (s : State) : (receiveStray b s).bottomAddr = s.bottomAddr := rfl
@[simp] theorem receiveStray_status (b : List Byte) (s : State) : (receiveStray b s).status = s.status := rfl
@[simp] theorem receiveStray_wire (b : List Byte) (s : State) : (receiveStray b s).wire = s.wire := rfl
@[simp] theorem receiveStray_writeLog (b : List Byte) (s : State) : (receiveStray b s).writeLog = s.writeLog := rfl
@[simp] theorem receiveStray_responses (b : List Byte) (s : State) : (receiveStray b s).responses = s.responses := rfl
@[simp] theorem receiveStray_commands (b : List Byte) (s : State) : (receiveStray b s).commands = s.commands := rfl
@[simp] theorem receiveStray_linkAnswers (b : List Byte) (s : State) : (receiveStray b s).linkAnswers = s.linkAnswers := rfl
@[simp] theorem receiveStray_portAnswers (b : List Byte) (s : State) : (receiveStray b s).portAnswers = s.portAnswers := rfl
@[simp] theorem receiveStray_transit (b : List Byte) (s : State) : (receiveStray b s).transit = s.transit := rfl
@[simp] theorem receiveStray_panels (b : List Byte) (s : State) : (receiveStray b s).panels = s.panels.map (Panel.hearStray b) := rfl

@[simp] theorem linkReplies_phase (as : List LinkAnswer) (s : State) : (s.linkReplies as).phase = s.phase := rfl
@[simp] theorem linkReplies_linkState (as : List LinkAnswer) (s : State) : (s.linkReplies as).linkState = s.linkState := rfl
@[simp] theorem linkReplies_topAddr (as : List LinkAnswer) (s : State) : (s.linkReplies as).topAddr = s.topAddr := rfl
@[simp] theorem linkReplies_bottomAddr (as : List LinkAnswer) (s : State) : (s.linkReplies as).bottomAddr = s.bottomAddr := rfl
@[simp] theorem linkReplies_status (as : List LinkAnswer) (s : State) : (s.linkReplies as).status = s.status := rfl
@[simp] theorem linkReplies_wire (as : List LinkAnswer) (s : State) : (s.linkReplies as).wire = s.wire := rfl
@[simp] theorem linkReplies_writeLog (as : List LinkAnswer) (s : State) : (s.linkReplies as).writeLog = s.writeLog := rfl
@[simp] theorem linkReplies_responses (as : List LinkAnswer) (s : State) : (s.linkReplies as).responses = s.responses := rfl
@[simp] theorem linkReplies_commands (as : List LinkAnswer) (s : State) : (s.linkReplies as).commands = s.commands := rfl
@[simp] theorem linkReplies_linkAnswers (as : List LinkAnswer) (s : State) : (s.linkReplies as).linkAnswers = s.linkAnswers ++ as := rfl
@[simp] theorem linkReplies_portAnswers (as : List LinkAnswer) (s : State) : (s.linkReplies as).portAnswers = s.portAnswers := rfl
@[simp] theorem linkReplies_transit (as : List LinkAnswer) (s : State) : (s.linkReplies as).transit = s.transit := rfl
@[simp] theorem linkReplies_panels (as : List LinkAnswer) (s : State) : (s.linkReplies as).panels = s.panels := rfl

@[simp] theorem platformReplies_phase (as : List PortAnswer) (s : State) : (s.platformReplies as).phase = s.phase := rfl
@[simp] theorem platformReplies_linkState (as : List PortAnswer) (s : State) : (s.platformReplies as).linkState = s.linkState := rfl
@[simp] theorem platformReplies_topAddr (as : List PortAnswer) (s : State) : (s.platformReplies as).topAddr = s.topAddr := rfl
@[simp] theorem platformReplies_bottomAddr (as : List PortAnswer) (s : State) : (s.platformReplies as).bottomAddr = s.bottomAddr := rfl
@[simp] theorem platformReplies_status (as : List PortAnswer) (s : State) : (s.platformReplies as).status = s.status := rfl
@[simp] theorem platformReplies_wire (as : List PortAnswer) (s : State) : (s.platformReplies as).wire = s.wire := rfl
@[simp] theorem platformReplies_writeLog (as : List PortAnswer) (s : State) : (s.platformReplies as).writeLog = s.writeLog := rfl
@[simp] theorem platformReplies_responses (as : List PortAnswer) (s : State) : (s.platformReplies as).responses = s.responses := rfl
@[simp] theorem platformReplies_commands (as : List PortAnswer) (s : State) : (s.platformReplies as).commands = s.commands := rfl
@[simp] theorem platformReplies_linkAnswers (as : List PortAnswer) (s : State) : (s.platformReplies as).linkAnswers = s.linkAnswers := rfl
@[simp] theorem platformReplies_portAnswers (as : List PortAnswer) (s : State) : (s.platformReplies as).portAnswers = s.portAnswers ++ as := rfl
@[simp] theorem platformReplies_transit (as : List PortAnswer) (s : State) : (s.platformReplies as).transit = s.transit := rfl
@[simp] theorem platformReplies_panels (as : List PortAnswer) (s : State) : (s.platformReplies as).panels = s.panels := rfl

@[simp] theorem hostPresents_phase (c : Command) (s : State) : (s.hostPresents c).phase = s.phase := rfl
@[simp] theorem hostPresents_linkState (c : Command) (s : State) : (s.hostPresents c).linkState = s.linkState := rfl
@[simp] theorem hostPresents_topAddr (c : Command) (s : State) : (s.hostPresents c).topAddr = s.topAddr := rfl
@[simp] theorem hostPresents_bottomAddr (c : Command) (s : State) : (s.hostPresents c).bottomAddr = s.bottomAddr := rfl
@[simp] theorem hostPresents_status (c : Command) (s : State) : (s.hostPresents c).status = s.status := rfl
@[simp] theorem hostPresents_wire (c : Command) (s : State) : (s.hostPresents c).wire = s.wire := rfl
@[simp] theorem hostPresents_writeLog (c : Command) (s : State) : (s.hostPresents c).writeLog = s.writeLog := rfl
@[simp] theorem hostPresents_responses (c : Command) (s : State) : (s.hostPresents c).responses = s.responses := rfl
@[simp] theorem hostPresents_commands (c : Command) (s : State) : (s.hostPresents c).commands = s.commands ++ [c] := rfl
@[simp] theorem hostPresents_linkAnswers (c : Command) (s : State) : (s.hostPresents c).linkAnswers = s.linkAnswers := rfl
@[simp] theorem hostPresents_portAnswers (c : Command) (s : State) : (s.hostPresents c).portAnswers = s.portAnswers := rfl
@[simp] theorem hostPresents_transit (c : Command) (s : State) : (s.hostPresents c).transit = s.transit := rfl
@[simp] theorem hostPresents_panels (c : Command) (s : State) : (s.hostPresents c).panels = s.panels := rfl

@[simp] theorem powerCycle_phase (top bottom : Byte) (s : State) : (s.powerCycle top bottom).phase = .idle := rfl
@[simp] theorem powerCycle_linkState (top bottom : Byte) (s : State) : (s.powerCycle top bottom).linkState = .closed := rfl
@[simp] theorem powerCycle_topAddr (top bottom : Byte) (s : State) : (s.powerCycle top bottom).topAddr = top := rfl
@[simp] theorem powerCycle_bottomAddr (top bottom : Byte) (s : State) : (s.powerCycle top bottom).bottomAddr = bottom := rfl
@[simp] theorem powerCycle_status (top bottom : Byte) (s : State) : (s.powerCycle top bottom).status = .ok := rfl
@[simp] theorem powerCycle_wire (top bottom : Byte) (s : State) : (s.powerCycle top bottom).wire = [] := rfl
@[simp] theorem powerCycle_writeLog (top bottom : Byte) (s : State) : (s.powerCycle top bottom).writeLog = [] := rfl
@[simp] theorem powerCycle_responses (top bottom : Byte) (s : State) : (s.powerCycle top bottom).responses = s.responses := rfl
@[simp] theorem powerCycle_commands (top bottom : Byte) (s : State) : (s.powerCycle top bottom).commands = s.commands := rfl
@[simp] theorem powerCycle_linkAnswers (top bottom : Byte) (s : State) : (s.powerCycle top bottom).linkAnswers = s.linkAnswers := rfl
@[simp] theorem powerCycle_portAnswers (top bottom : Byte) (s : State) : (s.powerCycle top bottom).portAnswers = s.portAnswers := rfl
@[simp] theorem powerCycle_transit (top bottom : Byte) (s : State) : (s.powerCycle top bottom).transit = s.transit := rfl
@[simp] theorem powerCycle_panels (top bottom : Byte) (s : State) : (s.powerCycle top bottom).panels = s.panels := rfl

@[simp] theorem release_phase (m : OnFail) (s : State) : (m.release s).phase = s.phase := by cases m <;> rfl
@[simp] theorem release_topAddr (m : OnFail) (s : State) : (m.release s).topAddr = s.topAddr := by cases m <;> rfl
@[simp] theorem release_bottomAddr (m : OnFail) (s : State) : (m.release s).bottomAddr = s.bottomAddr := by cases m <;> rfl
@[simp] theorem release_status (m : OnFail) (s : State) : (m.release s).status = s.status := by cases m <;> rfl
@[simp] theorem release_wire (m : OnFail) (s : State) : (m.release s).wire = s.wire := by cases m <;> rfl
@[simp] theorem release_writeLog (m : OnFail) (s : State) : (m.release s).writeLog = s.writeLog := by cases m <;> rfl
@[simp] theorem release_responses (m : OnFail) (s : State) : (m.release s).responses = s.responses := by cases m <;> rfl
@[simp] theorem release_commands (m : OnFail) (s : State) : (m.release s).commands = s.commands := by cases m <;> rfl
@[simp] theorem release_linkAnswers (m : OnFail) (s : State) : (m.release s).linkAnswers = s.linkAnswers := by cases m <;> rfl
@[simp] theorem release_portAnswers (m : OnFail) (s : State) : (m.release s).portAnswers = s.portAnswers := by cases m <;> rfl
@[simp] theorem release_transit (m : OnFail) (s : State) : (m.release s).transit = s.transit := by cases m <;> rfl
@[simp] theorem release_panels (m : OnFail) (s : State) : (m.release s).panels = s.panels := by cases m <;> rfl

theorem release_linkState (m : OnFail) (s : State) :
    (m.release s).linkState = match m with | .keepLink => s.linkState | .releaseLink => .closed := by cases m <;> rfl

/-- The field values of the state after power-on (R35). -/
theorem powerOn_fields (top bottom : Byte) (ps : List Panel) :
    (State.powerOn top bottom ps).phase = .idle ∧ (State.powerOn top bottom ps).linkState = .closed ∧
    (State.powerOn top bottom ps).status = .ok ∧ (State.powerOn top bottom ps).wire = [] ∧
    (State.powerOn top bottom ps).writeLog = [] := ⟨rfl, rfl, rfl, rfl, rfl⟩

end Sys2Proof.Machine
end

