-- ==== Sys2Proof/Laws/Ops.lean ====
section
/-! SUPPORT. What each shared operation can do, once: the writes of a command, the opening of the port, the checks of a
paint, and the meanings in terms of them. -/

namespace Sys2Proof.Machine

/-! ### LINK's answers and one write (R28, R44) -/

@[simp] theorem emitted_done (b : List Byte) : LinkAnswer.done.emitted b = b := rfl
@[simp] theorem emitted_fail (k : Nat) (b : List Byte) : (LinkAnswer.fail k).emitted b = b.take k := rfl
@[simp] theorem ok_done : LinkAnswer.done.ok = true := rfl
@[simp] theorem ok_fail (k : Nat) : (LinkAnswer.fail k).ok = false := rfl

theorem emitted_prefix (a : LinkAnswer) (b : List Byte) : a.emitted b <+: b := by
  cases a with
  | done => exact List.prefix_refl b
  | fail k => exact List.take_prefix k b

theorem emitted_eq_take (a : LinkAnswer) (b : List Byte) : a.emitted b = b.take (a.emitted b).length :=
  (List.prefix_iff_eq_take).mp (emitted_prefix a b)

theorem writeRecord_consistent (b : List Byte) (a : LinkAnswer) : (writeRecord b a).consistent := by
  refine ⟨(emitted_prefix a b).length_le, fun h => ?_⟩
  cases a with
  | done => rfl
  | fail k => simp [writeRecord] at h

theorem writeRecord_bytes (b : List Byte) (a : LinkAnswer) : (writeRecord b a).bytes = a.emitted b :=
  (emitted_eq_take a b).symm

@[simp] theorem sent_done (b : List Byte) : LinkAnswer.done.sent b = .whole b := rfl
@[simp] theorem sent_fail (k : Nat) (b : List Byte) : (LinkAnswer.fail k).sent b = .cut (b.take k) := rfl

theorem sendToPanels_none {b : List Byte} {a : LinkAnswer} (h : a.emitted b = []) (q : List Sent) :
    sendToPanels b a q = q := by simp [sendToPanels, h]

theorem sendToPanels_some {b : List Byte} {a : LinkAnswer} (h : a.emitted b ≠ []) (q : List Sent) :
    sendToPanels b a q = q ++ [a.sent b] := by simp [sendToPanels, h]

/-! ### The writes of a command (R45, R46, R106) -/

theorem runWrites_nil (m : OnFail) (s : State) : runWrites m [] s = endCommand .ok s := rfl

theorem runWrites_unanswered (m : OnFail) (b : List Byte) (bs : List (List Byte)) (s : State)
    (h : s.linkAnswers = []) : runWrites m (b :: bs) s = waitIn (.writing m (b :: bs)) s := by
  simp [runWrites, h]

theorem runWrites_done (m : OnFail) (b : List Byte) (bs : List (List Byte)) (s : State) (as : List LinkAnswer)
    (h : s.linkAnswers = .done :: as) :
    runWrites m (b :: bs) s = runWrites m bs (txWrite b .done { s with linkAnswers := as }) := by
  rw [runWrites]; simp [h]

theorem runWrites_fail (m : OnFail) (b : List Byte) (bs : List (List Byte)) (s : State) (k : Nat)
    (as : List LinkAnswer) (h : s.linkAnswers = .fail k :: as) :
    runWrites m (b :: bs) s = endCommand .io (m.release (txWrite b (.fail k) { s with linkAnswers := as })) := by
  rw [runWrites]; simp [h]

/-- An induction over the writes of a command, packaged: a relation between a state and a later one that holds of a
wait, of each end of the command and of the step over one successful write holds of `runWrites`. -/
theorem runWrites_induct (m : OnFail) (rel : State → State → Prop)
    (nil : ∀ s, rel s (endCommand .ok s))
    (unanswered : ∀ b bs s, s.linkAnswers = [] → rel s (waitIn (.writing m (b :: bs)) s))
    (done : ∀ b s as t, s.linkAnswers = .done :: as → rel (txWrite b .done { s with linkAnswers := as }) t → rel s t)
    (fail : ∀ b s k as, s.linkAnswers = .fail k :: as →
      rel s (endCommand .io (m.release (txWrite b (.fail k) { s with linkAnswers := as }))))
    (bs : List (List Byte)) : ∀ s, rel s (runWrites m bs s) := by
  induction bs with
  | nil => exact nil
  | cons b bs ih =>
    intro s
    match h : s.linkAnswers with
    | [] => rw [runWrites_unanswered m b bs s h]; exact unanswered b bs s h
    | .done :: as => rw [runWrites_done m b bs s as h]; exact done b s as _ h (ih _)
    | .fail k :: as => rw [runWrites_fail m b bs s k as h]; exact fail b s k as h

/-- What no write of a command touches. -/
structure SameOutside (s t : State) : Prop where
  topAddr : t.topAddr = s.topAddr
  bottomAddr : t.bottomAddr = s.bottomAddr
  commands : t.commands = s.commands
  portAnswers : t.portAnswers = s.portAnswers
  panels : t.panels = s.panels

theorem runWrites_sameOutside (m : OnFail) (bs : List (List Byte)) (s : State) : SameOutside s (runWrites m bs s) := by
  refine runWrites_induct m SameOutside ?_ ?_ ?_ ?_ bs s
  · intro s; exact ⟨rfl, rfl, rfl, rfl, rfl⟩
  · intro b bs s _; exact ⟨rfl, rfl, rfl, rfl, rfl⟩
  · intro b s as t _ h; exact ⟨h.topAddr, h.bottomAddr, h.commands, h.portAnswers, h.panels⟩
  · intro b s k as _; constructor <;> simp

/-! ### The meanings over the shared operations -/

theorem paint_closed (P : PixelOperand) (R C : Nat) (fs : List (List Byte)) (s : State) (h : s.linkState = .closed) :
    paint P R C fs s = endCommand .notOpen s := by simp [paint, h]

theorem paint_valid (P : PixelOperand) (R C : Nat) (fs : List (List Byte)) (s : State) (h : s.linkState = .opened)
    (hv : validate P R C = .ok) : paint P R C fs s = runWrites .keepLink fs s := by simp [paint, h, hv]

theorem paint_invalid (P : PixelOperand) (R C : Nat) (fs : List (List Byte)) (s : State) (h : s.linkState = .opened)
    (hv : validate P R C ≠ .ok) : paint P R C fs s = endCommand (validate P R C) s := by
  unfold paint
  rw [h]
  cases hc : validate P R C <;> simp_all

/-- A paint ends at once with a code, or is its writes. -/
theorem paint_cases (P : PixelOperand) (R C : Nat) (fs : List (List Byte)) (s : State) :
    (∃ c, c ≠ .ok ∧ c ≠ .io ∧ paint P R C fs s = endCommand c s) ∨
    (s.linkState = .opened ∧ validate P R C = .ok ∧ paint P R C fs s = runWrites .keepLink fs s) := by
  cases h : s.linkState with
  | closed => exact .inl ⟨.notOpen, by decide, by decide, paint_closed P R C fs s h⟩
  | opened =>
    by_cases hv : validate P R C = .ok
    · exact .inr ⟨rfl, hv, paint_valid P R C fs s h hv⟩
    · refine .inl ⟨validate P R C, hv, ?_, paint_invalid P R C fs s h hv⟩
      unfold validate
      split_ifs <;> decide

theorem openPort_unanswered (s : State) (h : s.portAnswers = []) :
    openPort s = waitIn (.opening Config.openRequest) s := by simp [openPort, h]

theorem openPort_fail (s : State) (as : List PortAnswer) (h : s.portAnswers = .fail :: as) :
    openPort s = endCommand .connection { s with portAnswers := as } := by simp [openPort, h]

theorem openPort_ok (s : State) (as : List PortAnswer) (h : s.portAnswers = .ok :: as) :
    openPort s = runWrites .releaseLink (dualFrames s.topAddr s.bottomAddr (zeroBuffer 14 28))
      { s with portAnswers := as, linkState := .opened } := by simp [openPort, h]

end Sys2Proof.Machine
end

