-- ==== Sys2Proof/Laws/Panels.lean ====
section
/-! SUPPORT. The panel boundary: the bits of `byteOfBits`, when a frame's data is clear, and what a frame does to a panel
in each of the three cases. -/

namespace Sys2Proof

theorem byteOfBits_getLsbD : ∀ (f : Fin 8 → Bool) (j : Fin 8), (byteOfBits f).getLsbD j = f j := by
  unfold byteOfBits
  decide +kernel

theorem bit7_eq_false_iff : ∀ b : Byte, b.getLsbD 7 = false ↔ b.toNat ≤ 0x7F := by decide +kernel

theorem clear_iff (f : Frame) : f.clear = true ↔ ∀ b ∈ f.data, b.toNat ≤ 0x7F := by
  simp only [Frame.clear, List.all_eq_true, Bool.not_eq_true', bit7_eq_false_iff]

theorem unclear_iff (f : Frame) : f.clear = false ↔ ∃ b ∈ f.data, 0x7F < b.toNat := by
  rw [← Bool.not_eq_true, clear_iff]
  simp

namespace Machine

theorem accepts_iff (p : Panel) (a : Byte) : p.accepts a = true ↔ a = 0xFF ∨ a = dipValue p.switches := by
  simp [Panel.accepts, broadcast]

theorem hear_accepted (f : Frame) (p : Panel) (hf : f.clear = true) (hp : p.accepts f.addr = true) :
    p.hear f = { p with heard := p.heard ++ [.frame f] } := by
  simp [Panel.hear, hf, hp]

theorem hear_rejected (f : Frame) (p : Panel) (hf : f.clear = true) (hp : p.accepts f.addr = false) : p.hear f = p := by
  simp [Panel.hear, hf, hp]

theorem hear_unclear (f : Frame) (p : Panel) (hf : f.clear = false) : p.hear f = p.hearStray f.bytes := by
  simp [Panel.hear, hf]

@[simp] theorem hear_switches (f : Frame) (p : Panel) : (p.hear f).switches = p.switches := by
  unfold Panel.hear Panel.hearStray
  repeat' split
  all_goals rfl

@[simp] theorem hear_accepts (f : Frame) (p : Panel) (a : Byte) : (p.hear f).accepts a = p.accepts a := by
  simp [Panel.accepts]

end Machine

end Sys2Proof
end

