-- ==== Sys2Proof/Laws/PerInstr.lean ====
section
/-! SUPPORT. The family TableRow: the encoding of every instruction meets its own row of spec/opcode_table.json, the match
and mask of R66 for a command word, the mode byte at byte 1 for a frame (R140). -/

namespace Sys2Proof.Laws.TableRow

/-- The mode byte the opcode table gives a frame's mnemonic (R72, R140). -/
def modeByteOf (mnemonic : String) : Byte :=
  if mnemonic = "FRAME_REFRESH" then 0x82 else if mnemonic = "FRAME_DATA_REFRESH" then 0x83 else 0x84

/-- The encoding of an instruction meets the row of its mnemonic. -/
def Statement (i : Instr) : Prop :=
  match encode i with
  | .command c => ∃ r ∈ opcodeMap, r.mnemonic = i.mnemonic ∧ r.matches c.word = true
  | .frame b => b.getD 1 0 = modeByteOf i.mnemonic

theorem openLink (top bottom : Byte) : Statement (.openLink top bottom) := by
  refine ⟨{ mnemonic := "OPEN", pattern := 0x01000000, mask := 0xFFFF0000 }, by decide, rfl, ?_⟩
  rw [OpcodeRow.matches, beq_iff_eq, show (0xFFFF0000 : CmdWord) = packFields 0xFF 1 0x7F 0 0 by decide,
    packFields_and, show bottom &&& (0 : Byte) = 0 from BitVec.and_zero,
    show top &&& (0 : Byte) = 0 from BitVec.and_zero]
  decide

theorem closeLink : Statement .closeLink := by
  refine ⟨{ mnemonic := "CLOSE", pattern := 0x02000000, mask := 0xFFFFFFFF }, by decide, rfl, ?_⟩
  show OpcodeRow.matches _ (packFields opClose 0 0 0 0) = true
  decide

theorem paintSingle (addr : Byte) (pix : PixelOperand) : Statement (.paintSingle addr pix) := by
  refine ⟨{ mnemonic := "PAINT_SINGLE", pattern := 0x10000000, mask := 0xFFFFFF00 }, by decide, rfl, ?_⟩
  rw [OpcodeRow.matches, beq_iff_eq, show (0xFFFFFF00 : CmdWord) = packFields 0xFF 1 0x7F 0xFF 0 by decide,
    packFields_and, show addr &&& (0 : Byte) = 0 from BitVec.and_zero]
  decide

theorem paintDual (top bottom : Byte) (pix : PixelOperand) : Statement (.paintDual top bottom pix) := by
  refine ⟨{ mnemonic := "PAINT_DUAL", pattern := 0x11000000, mask := 0xFFFF0000 }, by decide, rfl, ?_⟩
  rw [OpcodeRow.matches, beq_iff_eq, show (0xFFFF0000 : CmdWord) = packFields 0xFF 1 0x7F 0 0 by decide,
    packFields_and, show bottom &&& (0 : Byte) = 0 from BitVec.and_zero,
    show top &&& (0 : Byte) = 0 from BitVec.and_zero]
  decide

theorem paintDualDefault (pix : PixelOperand) : Statement (.paintDualDefault pix) := by
  refine ⟨{ mnemonic := "PAINT_DUAL_DEFAULT", pattern := 0x11800000, mask := 0xFFFFFFFF }, by decide, rfl, ?_⟩
  show OpcodeRow.matches _ (packFields opPaintDual 1 0 0 0) = true
  decide

theorem sendRaw (raw : List Byte) : Statement (.sendRaw raw) := by
  refine ⟨{ mnemonic := "SEND_RAW", pattern := 0x20000000, mask := 0xFFFFFFFF }, by decide, rfl, ?_⟩
  show OpcodeRow.matches _ (packFields opSendRaw 0 0 0 0) = true
  decide

theorem frameRefresh (addr : Byte) (data : List Byte) : Statement (.frameRefresh addr data) := rfl

theorem frameDataRefresh (addr : Byte) (data : List Byte) : Statement (.frameDataRefresh addr data) := rfl

theorem frameDataNoRefresh (addr : Byte) (data : List Byte) : Statement (.frameDataNoRefresh addr data) := rfl

end Sys2Proof.Laws.TableRow
end

