-- ==== Sys2Proof/Laws/Step.lean ====
section
/-! SUPPORT. What a step can do, once: the inversion of the opening of the port, of `exec` and of `step`, each as a
principle for a relation between the state before and the state after. -/

namespace Sys2Proof.Machine

/-- A whole frame's meaning, for the three frame constructors at once. -/
theorem exec_frameInstr (f : Frame) (s : State) : exec f.instr s = .next (receiveFrame f s) := by
  rcases f with ⟨m, a, d⟩
  cases m <;> rfl

theorem openPort_induct (rel : State → State → Prop) (s : State)
    (unanswered : s.portAnswers = [] → rel s (waitIn (.opening Config.openRequest) s))
    (fail : ∀ ps, s.portAnswers = .fail :: ps → rel s (endCommand .connection { s with portAnswers := ps }))
    (ok : ∀ ps, s.portAnswers = .ok :: ps →
      rel s (runWrites .releaseLink (dualFrames s.topAddr s.bottomAddr (zeroBuffer 14 28))
        { s with portAnswers := ps, linkState := .opened })) : rel s (openPort s) := by
  match h : s.portAnswers with
  | [] => rw [openPort_unanswered s h]; exact unanswered h
  | .fail :: ps => rw [openPort_fail s ps h]; exact fail ps h
  | .ok :: ps => rw [openPort_ok s ps h]; exact ok ps h

/-- An instruction ends at once with a code other than IO, closes an open link, opens the port, writes on an open link, or is
a frame's reception. -/
theorem exec_induct (rel : State → State → Prop) (i : Instr) (s t : State) (h : exec i s = .next t)
    (ended : ∀ c, c ≠ .io → rel s (endCommand c s))
    (closed : i = .closeLink → s.linkState = .opened → rel s (endCommand .ok { s with linkState := .closed }))
    (opening : ∀ top bottom, i = .openLink top bottom → s.linkState = .closed →
      rel s (openPort { s with topAddr := top, bottomAddr := bottom }))
    (writing : ∀ bs, bs ≠ [] → s.linkState = .opened → rel s (runWrites .keepLink bs s))
    (received : ∀ f : Frame, i = f.instr → rel s (receiveFrame f s)) : rel s t := by
  have painted : ∀ P R C bs, bs ≠ [] → rel s (paint P R C bs s) := by
    intro P R C bs hb
    rcases paint_cases P R C bs s with ⟨c, _, hio, hc⟩ | ⟨ho, _, hc⟩
    · rw [hc]; exact ended c hio
    · rw [hc]; exact writing bs hb ho
  cases i with
  | openLink top bottom =>
    simp only [exec, execOpenLink] at h
    split at h <;> cases h
    · exact ended .alreadyOpen (by decide)
    · exact opening top bottom rfl (by assumption)
  | closeLink =>
    simp only [exec, execCloseLink] at h
    split at h <;> cases h
    · exact ended .notOpen (by decide)
    · exact closed rfl (by assumption)
  | paintSingle addr P => cases h; exact painted _ _ _ _ (by simp)
  | paintDual top bottom P => cases h; exact painted _ _ _ _ (by simp [dualFrames])
  | paintDualDefault P => cases h; exact painted _ _ _ _ (by simp [dualFrames])
  | sendRaw raw =>
    simp only [exec, execSendRaw] at h
    split at h <;> cases h
    · exact ended .notOpen (by decide)
    · exact writing [raw] (by simp) (by assumption)
  | frameRefresh addr data => cases h; exact received { mode := .refresh, addr := addr, data := data } rfl
  | frameDataRefresh addr data => cases h; exact received { mode := .dataRefresh, addr := addr, data := data } rfl
  | frameDataNoRefresh addr data => cases h; exact received { mode := .dataNoRefresh, addr := addr, data := data } rfl

/-- A step waits, goes on with a command, refuses an illegal word, delivers stray bytes, or runs the instruction read
from the command port or from the link. -/
theorem step_induct (rel : State → State → Prop) (s t : State) (h : step s = .next t)
    (waits : rel s s)
    (goesOn : ∀ p, s.phase = .busy p → rel s (resume p s))
    (illegal : ∀ c cs, s.phase = .idle → s.commands = c :: cs →
      rel s (endCommand .illegalCommand { s with commands := cs }))
    (stray : ∀ b x xs, s.transit = x :: xs → x = .whole b ∨ x = .cut b → rel s (receiveStray b { s with transit := xs }))
    (command : ∀ c cs i u, s.phase = .idle → s.commands = c :: cs → decode (.command c) = .ok i →
      exec i { s with commands := cs } = .next u → rel s u)
    (frame : ∀ b xs i u, s.transit = .whole b :: xs → decode (.frame b) = .ok i →
      exec i { s with transit := xs } = .next u → rel s u) : rel s t := by
  unfold step nextAction at h
  match htr : s.transit with
  | .whole b :: xs =>
    simp only [htr, takeFromLink] at h
    cases hd : decode (.frame b) with
    | ok i => simp only [hd] at h; exact frame b xs i t htr hd h
    | error e => simp only [hd] at h; cases h; exact stray b _ xs htr (.inl rfl)
  | .cut b :: xs => simp only [htr, takeFromLink] at h; cases h; exact stray b _ xs htr (.inr rfl)
  | [] =>
    simp only [htr] at h
    match hp : s.phase with
    | .busy p => simp only [hp] at h; cases h; exact goesOn p hp
    | .idle =>
      simp only [hp] at h
      match hc : s.commands with
      | [] => simp only [hc] at h; cases h; exact waits
      | c :: cs =>
        simp only [hc, acceptCommand] at h
        cases hd : decode (.command c) with
        | ok i =>
          simp only [hd] at h
          exact command c cs i t hp hc hd (by rw [← h, hp, htr])
        | error e =>
          simp only [hd] at h
          cases h
          rw [show (illegalCommand _ : State) = endCommand .illegalCommand { s with commands := cs } by
            simp [endCommand, htr]]
          exact illegal c cs hp hc

end Sys2Proof.Machine
end

