-- ==== Sys2Proof/Tests/Slice0.lean ====
section
/-! SUPPORT. Small tests, their expected values from spec/ (95_test_vectors.md and the rules named), and a witness for the
hypotheses of every statement. -/

namespace Sys2Proof.Tests

open Sys2Proof.Machine

/-- A state with a link, PLATFORM's answers and LINK's answers, on addresses 01 and 02 and no panel. -/
def testState (link : LinkState) (ps : List PortAnswer) (as : List LinkAnswer) : State :=
  { State.powerOn 0x01 0x02 [] with linkState := link, portAnswers := ps, linkAnswers := as }

/-- The outcome is a next state with a property. -/
def nextWith (o : Host.Outcome State Fault Refusal) (p : State → Bool) : Bool :=
  match o with
  | .next t => p t
  | _ => false

/-- The frame F(a, d) of 95_test_vectors.md. -/
def frameF (a : Byte) (d : List Byte) : List Byte := [0x80, 0x83, a] ++ d ++ [0x8F]

def z28 : List Byte := List.replicate 28 0x00

/-! ### WellFormed refuses an ill-formed operand -/

/-- Six rows for seven. -/
def shortOperand : PixelOperand := { rows := 7, cols := 28, cells := List.replicate 6 (List.replicate 28 0) }

/-- One row of 27 cells for 28. -/
def raggedOperand : PixelOperand :=
  { rows := 7, cols := 28, cells := List.replicate 6 (List.replicate 28 0) ++ [List.replicate 27 0] }

theorem test_wf_refuses_missing_row_single : (Instr.paintSingle 0x05 shortOperand).wf = false := by decide
theorem test_wf_refuses_ragged_row_single : (Instr.paintSingle 0x05 raggedOperand).wf = false := by decide
theorem test_wf_refuses_missing_row_dual : (Instr.paintDual 0x01 0x02 shortOperand).wf = false := by decide
theorem test_wf_refuses_ragged_row_default : (Instr.paintDualDefault raggedOperand).wf = false := by decide
theorem test_wf_accepts_wrong_shape : (Instr.paintSingle 0x05 (zeroBuffer 8 28)).wf = true := by decide

/-! ### Decoding: words written out from R65 and R66 (V-DEC), frames from R70 -/

-- OP = 00000001, D = 0, RSV = 0000000, B = 00000010, A = 00000001
theorem test_decode_open : decodeTableWord 32 0b00000001000000000000001000000001 = some (.openLink 0x01 0x02) := by decide
theorem test_decode_close : decodeTableWord 32 0b00000010000000000000000000000000 = some .closeLink := by decide
theorem test_decode_paint_single :
    decodeTableWord 32 0b00010000000000000000000011111110 = some (.paintSingle 0xFE .absent) := by decide
theorem test_decode_paint_dual :
    decodeTableWord 32 0b00010001000000000000001000000001 = some (.paintDual 0x01 0x02 .absent) := by decide
theorem test_decode_paint_dual_default :
    decodeTableWord 32 0b00010001100000000000000000000000 = some (.paintDualDefault .absent) := by decide
theorem test_decode_send_raw : decodeTableWord 32 0b00100000000000000000000000000000 = some (.sendRaw []) := by decide
theorem test_decode_frame_refresh :
    decodeTableWord 8 0x82 = some (.frameRefresh 0x00 Config.refreshOnlyData) := rfl
theorem test_decode_frame_data_refresh :
    decode (.frame [0x80, 0x83, 0x05, 0x2A, 0x8F]) = .ok (.frameDataRefresh 0x05 [0x2A]) := by decide
theorem test_decode_frame_data_norefresh :
    decode (.frame [0x80, 0x84, 0x03, 0x7F, 0x8F]) = .ok (.frameDataNoRefresh 0x03 [0x7F]) := by decide
-- V-DEC-4, 6, 9, 11, 12, 13, 14, 15: each illegal for its own reason (R69)
theorem test_decode_close_with_address :
    decode (.command { word := 0x02000001, pix := .absent, raw := [] }) = .error .nonzeroField := by decide
theorem test_decode_default_with_address :
    decode (.command { word := 0x11800001, pix := .absent, raw := [] }) = .error .nonzeroField := by decide
theorem test_decode_reserved_bit :
    decode (.command { word := 0x10010000, pix := .absent, raw := [] }) = .error .reservedBits := by decide
theorem test_decode_reserved_opcode :
    decode (.command { word := 0x00000000, pix := .absent, raw := [] }) = .error .reservedOpcode := by decide
theorem test_decode_open_with_default_bit :
    decode (.command { word := 0x01800000, pix := .absent, raw := [] }) = .error .nonzeroField := by decide
theorem test_decode_frame_without_terminator : decode (.frame [0x80, 0x83, 0x05, 0x2A]) = .error .badTerminator := by decide
theorem test_decode_frame_unknown_mode : decode (.frame [0x80, 0x85, 0x05, 0x8F]) = .error .unknownMode := by decide

/-! ### Datapath (S2 to S5, V-PACK, V-ENC, V-VAL, V-SPLIT) -/

theorem test_pack_top_pixel : packColumn [1, 0, 0, 0, 0, 0, 0] = 0x01 := by decide
theorem test_pack_bottom_pixel : packColumn [0, 0, 0, 0, 0, 0, 1] = 0x40 := by decide
theorem test_pack_first_four : packColumn [1, 1, 1, 1, 0, 0, 0] = 0x0F := by decide
theorem test_encode_diagonal : paintFrame 0x05 (diagBuffer 7 28) =
    [0x80, 0x83, 0x05, 0x01, 0x02, 0x04, 0x08, 0x10, 0x20, 0x40, 0x01, 0x02, 0x04, 0x08, 0x10, 0x20, 0x40,
     0x01, 0x02, 0x04, 0x08, 0x10, 0x20, 0x40, 0x01, 0x02, 0x04, 0x08, 0x10, 0x20, 0x40, 0x8F] := by decide +kernel
theorem test_encode_last_column :
    paintFrame 0x05 (columnBuffer 7 28 27) = [0x80, 0x83, 0x05] ++ List.replicate 27 0x00 ++ [0x7F, 0x8F] := by
  decide +kernel
theorem test_validate_last_cell : validate (cellBuffer 14 28 13 27 2) 14 28 = .valueDomain := by decide +kernel
theorem test_validate_shape_first : validate (cellBuffer 8 28 0 0 2) 7 28 = .shape := by decide
theorem test_validate_absent : validate .absent 7 28 = .shape := by decide
theorem test_split_row_seven : dualFrames 0x01 0x02 (rowBuffer 14 28 7) =
    [frameF 0x01 z28, frameF 0x02 (List.replicate 28 0x01)] := by decide +kernel

/-! ### Commands (V-PAINT, V-LINK, V-RAW, V-ILL) -/

-- V-PAINT-3
theorem test_paint_single_fails_after_five :
    nextWith (exec (.paintSingle 0x05 (diagBuffer 7 28)) (testState .opened [] [.fail 5])) (fun t =>
      t.wire == [0x80, 0x83, 0x05, 0x01, 0x02] && t.status == .io && t.linkState == .opened) = true := by decide +kernel
-- V-PAINT-8
theorem test_paint_single_on_closed_link :
    nextWith (exec (.paintSingle 0x05 (zeroBuffer 7 28)) (testState .closed [] [.done])) (fun t =>
      t.wire == [] && t.writeLog == [] && t.status == .notOpen) = true := by decide
-- V-PAINT-12
theorem test_paint_dual_second_write_fails :
    nextWith (exec (.paintDual 0x01 0x02 (rowBuffer 14 28 13)) (testState .opened [] [.done, .fail 10])) (fun t =>
      t.wire == frameF 0x01 z28 ++ [0x80, 0x83, 0x02, 0x40, 0x40, 0x40, 0x40, 0x40, 0x40, 0x40] &&
      t.writeLog.length == 2 && t.status == .io) = true := by decide +kernel
-- V-PAINT-11
theorem test_paint_dual_first_write_fails :
    nextWith (exec (.paintDual 0x01 0x02 (rowBuffer 14 28 13)) (testState .opened [] [.fail 3, .done])) (fun t =>
      t.wire == [0x80, 0x83, 0x01] && t.writeLog.length == 1 && t.linkAnswers == [.done]) = true := by decide +kernel
-- V-PAINT-17
theorem test_paint_dual_default :
    nextWith (exec (.paintDualDefault (rowBuffer 14 28 7)) (testState .opened [] [.done, .done])) (fun t =>
      t.wire == frameF 0x01 z28 ++ frameF 0x02 (List.replicate 28 0x01) && t.status == .ok) = true := by decide +kernel
-- V-LINK-1
theorem test_open_blanks_both_panels :
    nextWith (exec (.openLink 0x03 0x04) (testState .closed [.ok] [.done, .done])) (fun t =>
      t.wire == frameF 0x03 z28 ++ frameF 0x04 z28 && t.linkState == .opened && t.topAddr == 0x03 &&
      t.bottomAddr == 0x04 && t.status == .ok) = true := by decide +kernel
-- V-LINK-3
theorem test_open_fails_in_blank_paint :
    nextWith (exec (.openLink 0x01 0x02) (testState .closed [.ok] [.done, .fail 4])) (fun t =>
      t.wire == frameF 0x01 z28 ++ [0x80, 0x83, 0x02, 0x00] && t.linkState == .closed && t.status == .io) = true := by
  decide +kernel
-- D9 (V-LINK-8 and P4 have OK here: notes/assumptions/7.md)
theorem test_close_on_closed_link :
    nextWith (exec .closeLink (testState .closed [] [])) (fun t => t.status == .notOpen && t.linkState == .closed) = true := by
  decide
theorem test_close_on_open_link :
    nextWith (exec .closeLink (testState .opened [] [])) (fun t => t.wire == [] && t.linkState == .closed) = true := by
  decide
-- V-RAW-1, V-RAW-3
theorem test_send_raw :
    nextWith (exec (.sendRaw [0x80, 0x84, 0x03, 0x7F, 0x8F]) (testState .opened [] [.done])) (fun t =>
      t.wire == [0x80, 0x84, 0x03, 0x7F, 0x8F] && t.status == .ok) = true := by decide
theorem test_send_empty_raw_fails :
    nextWith (exec (.sendRaw []) (testState .opened [] [.fail 0])) (fun t =>
      t.wire == [] && t.writeLog == [{ requested := [], emitted := 0, ok := false }] && t.status == .io) = true := by
  decide
-- V-ILL-2
theorem test_illegal_word_before_link_check :
    nextWith (step { testState .closed [] [] with commands := [{ word := 0x11800001, pix := .absent, raw := [] }] })
      (fun t => t.status == .illegalCommand && t.responses == [.illegalCommand] && t.wire == []) = true := by decide
-- P5: LINK never answers
theorem test_unanswered_paint_waits :
    nextWith (exec (.paintSingle 0x01 (onesBuffer 7 28)) (testState .opened [] [])) (fun t =>
      t.phase != .idle && t.wire == [] && t.responses == []) = true := by decide +kernel
/-- The data of a refresh-only frame is not known (R143), and the step runs the frame whatever it is. -/
theorem test_refresh_frame_runs_first_after_reset :
    step (State.reset.withFetchWord 8 0x82) = exec (.frameRefresh 0x00 Config.refreshOnlyData) State.reset := by
  simp only [step, State.withFetchWord, tableEncoded, putAtPort, nextAction, takeFromLink, decode]
  simp [tableData, decodeParts, FrameMode.byte, FrameMode.ofByte?, Frame.instr]
theorem test_fetch_word_runs_first_after_reset :
    nextWith (step (State.reset.withFetchWord 32 0x20000000)) (fun t => t.status == .notOpen) = true := by decide

/-! ### Panels (V-FRAME) -/

/-- A panel whose DIP_VALUE is v, with nothing heard. -/
def panelAt (v : Byte) : Panel := { switches := switchesFor v, heard := [] }

-- V-FRAME-3: broadcast reaches any panel
theorem test_broadcast_is_heard :
    (Panel.hear { mode := .dataRefresh, addr := 0xFF, data := List.replicate 28 0x7F } (panelAt 0x05)).asked 6 27 =
      some true := by decide +kernel
-- V-FRAME-1: row 0 shown, rows 1..6 hidden
theorem test_row_frame_shows_row_zero :
    Frame.asks { mode := .dataRefresh, addr := 0x05, data := List.replicate 28 0x01 } 0 27 = some true ∧
    Frame.asks { mode := .dataRefresh, addr := 0x05, data := List.replicate 28 0x01 } 1 27 = some false := by decide
-- V-FRAME-4, V-FRAME-5
theorem test_norefresh_frame_is_not_settled :
    Frame.asks { mode := .dataNoRefresh, addr := 0x05, data := List.replicate 28 0x7F } 0 0 = none := by decide
theorem test_refresh_frame_is_not_settled : Frame.asks { mode := .refresh, addr := 0x05, data := [] } 0 0 = none := by decide

-- R147: two whole frames in one raw write reach every panel, and ask for no dot
theorem test_two_frames_in_one_write_are_stray :
    nextWith (step { testState .opened [] [] with
        transit := [.whole (frameF 0x05 z28 ++ frameF 0x06 z28)], panels := [panelAt 0x05, panelAt 0x06] })
      (fun t => t.transit == [] && t.panels.all fun p => p.heard == [.stray (frameF 0x05 z28 ++ frameF 0x06 z28)]) = true := by
  decide +kernel

-- R200: the bottom panel does not have the frame of a write that failed, be it after its last byte
theorem test_failed_whole_frame_is_not_received :
    nextWith (exec (.paintSingle 0x05 (onesBuffer 7 28)) (testState .opened [] [.fail 32])) (fun t =>
      t.status == .io && t.transit == [.cut (frameF 0x05 (List.replicate 28 0x7F))] &&
      nextWith (step { t with panels := [panelAt 0x05] }) fun u => u.panels.all fun p => p.asked 0 0 == none) = true := by
  decide +kernel

/-! ### Witnesses: the hypotheses of the statements can be met -/

theorem isBuffer_zero (R C : Nat) : IsBuffer (zeroBuffer R C) R C := isBuffer_ofFn R C _ fun _ _ => .inl rfl

theorem isBuffer_diag (R C : Nat) : IsBuffer (diagBuffer R C) R C :=
  isBuffer_ofFn R C _ fun r c => by by_cases h : r = c % 7 <;> simp [h]

theorem hasBadCell_seven : HasBadCell (cellBuffer 7 28 6 27 2) 7 28 :=
  hasBadCell_ofFn 7 28 _ 6 27 (by decide) (by decide) (by decide) (by decide)

theorem hasBadCell_fourteen : HasBadCell (cellBuffer 14 28 13 27 2) 14 28 :=
  hasBadCell_ofFn 14 28 _ 13 27 (by decide) (by decide) (by decide) (by decide)

theorem witness_PackColumnPutsEachRowInItsBit :
    [1, 0, 1, 0, 1, 0, 1].length = 7 ∧ ∀ v ∈ [1, 0, 1, 0, 1, 0, 1], v = 0 ∨ v = 1 := by decide

theorem witness_ColumnPackingIsABijection :
    ([1, 1, 1, 1, 1, 1, 1].length = 7 ∧ ∀ v ∈ [1, 1, 1, 1, 1, 1, 1], v = 0 ∨ v = 1) ∧ (0x7F : Byte).toNat ≤ 0x7F ∧
    (0x00 : Byte).toNat ≤ 0x7F := by decide

theorem witness_FramesAreBuiltAsLaidOut : IsBuffer (diagBuffer 7 28) 7 28 ∧ 0x40 ∈ encodePanel (diagBuffer 7 28) :=
  ⟨isBuffer_diag 7 28, by decide +kernel⟩

theorem witness_ValidateChecksShapeThenDomain :
    (PixelOperand.absent.rows ≠ 7 ∨ PixelOperand.absent.cols ≠ 28) ∧ HasBadCell (cellBuffer 7 28 6 27 2) 7 28 ∧
    IsBuffer (diagBuffer 7 28) 7 28 := ⟨by decide, hasBadCell_seven, isBuffer_diag 7 28⟩

theorem witness_DualFramesCarryTheDisplayRows : IsBuffer (diagBuffer 14 28) 14 28 := isBuffer_diag 14 28

/-- One legal word of each command. -/
theorem witness_AddressesAreTheWordsLowBytes :
    decode (.command { word := 0x0100FF00, pix := .absent, raw := [] }) = .ok (.openLink 0x00 0xFF) ∧
    decode (.command { word := 0x02000000, pix := .absent, raw := [] }) = .ok .closeLink ∧
    decode (.command { word := 0x100000FF, pix := .absent, raw := [] }) = .ok (.paintSingle 0xFF .absent) ∧
    decode (.command { word := 0x110000FF, pix := .absent, raw := [] }) = .ok (.paintDual 0xFF 0x00 .absent) ∧
    decode (.command { word := 0x11800000, pix := .absent, raw := [] }) = .ok (.paintDualDefault .absent) ∧
    decode (.command { word := 0x20000000, pix := .absent, raw := [0x80] }) = .ok (.sendRaw [0x80]) := by decide

theorem witness_EncodeOfDecodeIsTheWord :
    decode (.command { word := 0x02000000, pix := .absent, raw := [] }) = .ok .closeLink ∧
    decode (.command { word := 0x02000000, pix := .absent, raw := [0x01] }) = .ok .closeLink ∧
    decode (.frame [0x80, 0x82, 0x05, 0x8F]) = .ok (.frameRefresh 0x05 []) := by decide

theorem witness_UnreadOperandsAreIgnored :
    (Instr.openLink 0x00 0xFF).mnemonic = "OPEN" ∧ Instr.closeLink.mnemonic = "CLOSE" ∧
    (Instr.paintSingle 0xFF .absent).mnemonic = "PAINT_SINGLE" ∧
    (Instr.paintDual 0xFF 0x00 .absent).mnemonic = "PAINT_DUAL" ∧
    (Instr.paintDualDefault .absent).mnemonic = "PAINT_DUAL_DEFAULT" ∧ (Instr.sendRaw [0x80]).mnemonic = "SEND_RAW" ∧
    decode (.command { word := 0x30000000, pix := .absent, raw := [] }) = .error .reservedOpcode := by decide

theorem witness_StepRunsTheDecodedInstruction :
    (testState .closed [] []).transit = [] ∧ (testState .closed [] []).phase = .idle ∧
    (State.hostPresents { word := 0x02000000, pix := .absent, raw := [] } (testState .closed [] [])).commands =
      [{ word := 0x02000000, pix := .absent, raw := [] }] ∧
    decode (.command { word := 0x02000000, pix := .absent, raw := [] }) = .ok .closeLink ∧
    decode (.frame [0x80, 0x82, 0x05, 0x8F]) = .ok (.frameRefresh 0x05 []) ∧
    decodeTableWord 32 0x02000000 = some .closeLink ∧
    decodeTableWord 8 0x84 = some (.frameDataNoRefresh 0x00 (List.replicate 28 0)) ∧
    ({ testState .opened [] [.done] with phase := .busy (.writing .keepLink [[0x80]]) } : State).phase =
      .busy (.writing .keepLink [[0x80]]) := by decide

-- R29, R46: a BUSY block whose answer has come ends its command
theorem test_answered_block_goes_on :
    nextWith (step { testState .opened [] [.done] with phase := .busy (.writing .keepLink [[0x80]]) }) (fun t =>
      t.phase == .idle && t.wire == [0x80] && t.responses == [.ok]) = true := by decide

theorem witness_IllegalWordOnlyReports :
    (∀ r ∈ opcodeMap, r.matches 0x30000000 = false) ∧ (∀ r ∈ opcodeMap, r.matches 0x11800001 = false) ∧
    (testState .opened [] []).transit = [] ∧ (testState .opened [] []).phase = .idle := by decide

/-- A BUSY block with LINK silent, a BUSY block with PLATFORM silent, and an IDLE block with no command. -/
theorem witness_AnUnansweredBlockWaits :
    (({ testState .opened [] [] with phase := .busy (.writing .keepLink [[0x80]]) } : State).phase =
      .busy (.writing .keepLink [[0x80]]) ∧ (testState .opened [] []).linkAnswers = []) ∧
    (({ testState .closed [] [] with phase := .busy (.opening Config.openRequest) } : State).phase =
      .busy (.opening Config.openRequest) ∧ (testState .closed [] []).portAnswers = []) ∧
    ((testState .closed [] []).phase = .idle ∧ (testState .closed [] []).commands = [] ∧
      (testState .closed [] []).transit = []) := ⟨⟨rfl, rfl⟩, ⟨rfl, rfl⟩, rfl, rfl, rfl⟩

/-- A state whose next command is CLOSE. -/
def closeNext (link : LinkState) : State :=
  State.hostPresents { word := 0x02000000, pix := .absent, raw := [] } (testState link [] [])

/-- Its step takes the command, ends it and answers: the premise of the statements about every step
(StepAlwaysAnswersANextState, PortTakesOneCommandOnlyWhenIdle, TheResponseIsTheNewStatus, WireIsAppendOnly), in the case
where the command port, STATUS, the responses and LINK_STATE all move. -/
theorem witness_statements_about_every_step :
    step (closeNext .opened) = .next (endCommand .ok (testState .closed [] [])) ∧
    step (testState .closed [] []) = .next (testState .closed [] []) := ⟨rfl, rfl⟩


theorem testState_inv (link : LinkState) (ps : List PortAnswer) (as : List LinkAnswer) : (testState link ps as).Inv := by
  constructor <;> simp [testState, State.powerOn]

theorem closeNext_inv (link : LinkState) : (closeNext link).Inv := by
  constructor <;> simp [closeNext, testState, State.powerOn]

theorem witness_StepKeepsTheRecordConsistent :
    (closeNext .opened).Inv ∧ step (closeNext .opened) = .next (endCommand .ok (testState .closed [] [])) :=
  ⟨closeNext_inv .opened, rfl⟩

/-- A state whose next command is OPEN, with no answer yet. -/
def openNext : State :=
  State.hostPresents { word := 0x01000403, pix := .absent, raw := [] } (testState .closed [] [])

theorem witness_OnlyOpenWritesTheAddresses :
    step openNext = .next (waitIn (.opening Config.openRequest)
      { testState .closed [] [] with topAddr := 0x03, bottomAddr := 0x04 }) := rfl

/-- The four ways LINK_STATE changes: CLOSE, OPEN taken with PLATFORM's answer, OPEN resumed by PLATFORM's answer, and a
failing blank frame. -/
theorem witness_OnlyOpenAndCloseChangeTheLink :
    ((closeNext .opened).Inv ∧ nextWith (step (closeNext .opened)) (fun t => t.linkState == .closed) = true) ∧
    ((openNext.platformReplies [.ok]).Inv ∧
      nextWith (step (openNext.platformReplies [.ok])) (fun t => t.linkState == .opened) = true) ∧
    (({ testState .closed [.ok] [] with phase := .busy (.opening Config.openRequest) } : State).Inv ∧
      nextWith (step { testState .closed [.ok] [] with phase := .busy (.opening Config.openRequest) })
        (fun t => t.linkState == .opened) = true) ∧
    (({ testState .opened [] [.fail 0] with phase := .busy (.writing .releaseLink [[0x80]]) } : State).Inv ∧
      nextWith (step { testState .opened [] [.fail 0] with phase := .busy (.writing .releaseLink [[0x80]]) })
        (fun t => t.linkState == .closed) = true) := by
  refine ⟨⟨closeNext_inv _, by decide⟩, ⟨?_, by decide +kernel⟩, ⟨?_, by decide +kernel⟩, ⟨?_, by decide⟩⟩ <;>
    constructor <;> simp [openNext, testState, State.powerOn, State.hostPresents, State.platformReplies]

theorem witness_RejectedCommandsWriteNothing :
    exec (.sendRaw [0x80]) (testState .closed [] []) = .next (endCommand .notOpen (testState .closed [] [])) ∧
    (endCommand .notOpen (testState .closed [] [])).responses = (testState .closed [] []).responses ++ [.notOpen] ∧
    Code.notOpen ≠ .ok ∧ Code.notOpen ≠ .io := ⟨rfl, rfl, by decide, by decide⟩

theorem witness_FailedValidationWritesNothing :
    (testState .opened [] []).linkState = .opened ∧ ¬ IsBuffer (zeroBuffer 8 28) 7 28 ∧
    ¬ IsBuffer (cellBuffer 14 28 13 27 2) 14 28 := by
  refine ⟨rfl, fun h => absurd h.1 (by decide), fun h => ?_⟩
  have h2 := h.2.2 13 (by decide) 27 (by decide)
  rw [cellBuffer, cell_ofFn _ _ _ (by decide) (by decide)] at h2
  exact absurd h2 (by decide)

/-- Each clause of the statement about PAINT_SINGLE, with Fail at both ends of its range. -/
theorem witness_PaintSingleInEveryCase :
    ((0x10000005 : CmdWord) &&& 0xFFFFFF00 = 0x10000000) ∧ (testState .closed [] []).linkState = .closed ∧
    ((zeroBuffer 14 28).rows ≠ 7 ∨ (zeroBuffer 14 28).cols ≠ 28) ∧ HasBadCell (cellBuffer 7 28 6 27 2) 7 28 ∧
    IsBuffer (diagBuffer 7 28) 7 28 ∧ (testState .opened [] []).linkState = .opened ∧
    (testState .opened [] []).linkAnswers = [] ∧ (testState .opened [] [.done]).linkAnswers = .done :: [] ∧
    (testState .opened [] [.fail 0]).linkAnswers = .fail 0 :: [] ∧
    (testState .opened [] [.fail 32]).linkAnswers = .fail 32 :: [] :=
  ⟨by decide, rfl, .inl (by decide), hasBadCell_seven, isBuffer_diag 7 28, rfl, rfl, rfl, rfl, rfl⟩

theorem witness_PaintDualInEveryCase :
    ((0x1100FF00 : CmdWord) &&& 0xFFFF0000 = 0x11000000) ∧ (testState .closed [] []).linkState = .closed ∧
    ((zeroBuffer 7 28).rows ≠ 14 ∨ (zeroBuffer 7 28).cols ≠ 28) ∧ HasBadCell (cellBuffer 14 28 13 27 2) 14 28 ∧
    IsBuffer (diagBuffer 14 28) 14 28 ∧ (testState .opened [] []).linkState = .opened ∧
    (testState .opened [] []).linkAnswers = [] ∧ (testState .opened [] [.fail 0]).linkAnswers = .fail 0 :: [] ∧
    (testState .opened [] [.done]).linkAnswers = [.done] ∧
    (testState .opened [] [.done, .fail 32]).linkAnswers = .done :: .fail 32 :: [] ∧
    (testState .opened [] [.done, .done]).linkAnswers = .done :: .done :: [] :=
  ⟨by decide, rfl, .inl (by decide), hasBadCell_fourteen, isBuffer_diag 14 28, rfl, rfl, rfl, rfl, rfl, rfl⟩

theorem witness_PaintDualDefaultUsesTheConstructionAddresses :
    (testState .opened [] [.done, .done]).linkState = .opened ∧ IsBuffer (diagBuffer 14 28) 14 28 ∧
    (testState .opened [] [.done, .done]).linkAnswers = .done :: .done :: [] := ⟨rfl, isBuffer_diag 14 28, rfl⟩

theorem witness_OpenInEveryCase :
    ((0x0100FFFF : CmdWord) &&& 0xFFFF0000 = 0x01000000) ∧ (testState .opened [] []).linkState = .opened ∧
    (testState .closed [] []).linkState = .closed ∧ (testState .closed [] []).portAnswers = [] ∧
    (testState .closed [.fail] []).portAnswers = .fail :: [] ∧ (testState .closed [.ok] []).portAnswers = .ok :: [] ∧
    (testState .closed [.ok] []).linkAnswers = [] ∧ (testState .closed [.ok] [.fail 0]).linkAnswers = .fail 0 :: [] ∧
    (testState .closed [.ok] [.done]).linkAnswers = [.done] ∧
    (testState .closed [.ok] [.done, .fail 32]).linkAnswers = .done :: .fail 32 :: [] ∧
    (testState .closed [.ok] [.done, .done]).linkAnswers = .done :: .done :: [] := by decide

theorem witness_SendRawInEveryCase :
    (testState .closed [] []).linkState = .closed ∧ (testState .opened [] []).linkState = .opened ∧
    (testState .opened [] []).linkAnswers = [] ∧ (testState .opened [] [.done]).linkAnswers = .done :: [] ∧
    (testState .opened [] [.fail 0]).linkAnswers = .fail 0 :: [] := by decide

theorem witness_AnsweredCommandsEnd :
    decode (.command { word := 0x0100FF00, pix := .absent, raw := [] }) = .ok (.openLink 0x00 0xFF) ∧
    2 ≤ (testState .closed [.ok] [.done, .fail 3]).linkAnswers.length ∧
    1 ≤ (testState .closed [.ok] [.done, .fail 3]).portAnswers.length := by decide

/-- A command that waits, and the same command with the answer there. -/
theorem witness_LateAnswersChangeNothing :
    (testState .opened [] []).phase = .idle ∧
    exec (.sendRaw [0x80]) (testState .opened [] []) =
      .next (waitIn (.writing .keepLink [[0x80]]) (testState .opened [] [])) ∧
    nextWith (exec (.sendRaw [0x80]) ((testState .opened [] []).linkReplies [.done])) (fun t => t.status == .ok) = true ∧
    nextWith (exec (.openLink 0x01 0x02) ((testState .closed [] []).platformReplies [.fail]))
      (fun t => t.status == .connection) = true := ⟨rfl, rfl, by decide, by decide⟩

theorem witness_NoCommandReadsTheRecord :
    (testState .opened [] [.done]).sameInputs
      { testState .opened [] [.done] with
        wire := [0x01], writeLog := [{ requested := [0x01], emitted := 1, ok := true }], status := .io,
        responses := [.io] } := ⟨rfl, rfl, rfl, rfl, rfl, rfl, rfl⟩

theorem witness_PanelsNeverAffectACommand :
    decode (.command { word := 0x20000000, pix := .absent, raw := [0x80] }) = .ok (.sendRaw [0x80]) := by decide

theorem witness_PowerOnAddressesAreUnobservable :
    openNext.phase = .idle ∧ openNext.linkState = .closed ∧
    Sys2Proof.core.run 1 openNext = .next (waitIn (.opening Config.openRequest)
      { testState .closed [] [] with topAddr := 0x03, bottomAddr := 0x04 }) := ⟨rfl, rfl, rfl⟩

theorem witness_StandardFrameAsksForItsDots :
    (List.replicate 28 (0x7F : Byte)).length = 28 ∧ (∀ b ∈ List.replicate 28 (0x7F : Byte), b.toNat ≤ 0x7F) ∧
    (panelAt 0x05).accepts 0xFF = true ∧ (∀ h ∈ (panelAt 0x05).heard, h.isStray = false) := by
  refine ⟨by decide, by decide, by simp [Panel.accepts, broadcast], by simp [panelAt]⟩

/-- Every panel accepts its own address and does not accept some other: the cases of the statements about panels, at
panels that have received nothing. -/
theorem witness_accepted_and_rejected_addresses (p : Panel) :
    p.accepts (dipValue p.switches) = true ∧ ∃ a, p.accepts a = false := by
  refine ⟨by simp [Panel.accepts], ?_⟩
  have other : ∀ v : Byte, ∃ a : Byte, a ≠ 0xFF ∧ a ≠ v := by decide +kernel
  obtain ⟨a, h, h'⟩ := other (dipValue p.switches)
  exact ⟨a, by simp only [Panel.accepts, broadcast, Bool.or_eq_false_iff, beq_eq_false_iff_ne]; exact ⟨h, h'⟩⟩

theorem witness_FramesReachTheAcceptingPanels :
    (FrameMode.refresh = .refresh ∧ Instr.frameRefresh 0xFF [] = .frameRefresh 0xFF []) ∧
    (∀ b ∈ ([] : List Byte), b.toNat ≤ 0x7F) ∧ (∀ b ∈ [(0x7F : Byte)], b.toNat ≤ 0x7F) ∧
    (∃ b ∈ [(0x7F : Byte), 0x80], 0x7F < b.toNat) := by decide

theorem witness_CloseReleasesTheLink :
    exec .closeLink (testState .opened [] []) = .next (endCommand .ok (testState .closed [] [])) ∧
    exec .closeLink (testState .closed [] []) = .next (endCommand .notOpen (testState .closed [] [])) := ⟨rfl, rfl⟩

theorem witness_OpenFramesAskForNothing :
    FrameMode.refresh ≠ .dataRefresh ∧ FrameMode.dataNoRefresh ≠ .dataRefresh ∧ ([] : List Byte).length ≠ 28 ∧
    (∃ b ∈ [(0x80 : Byte)], 0x7F < b.toNat) := by decide

theorem witness_CutPaintFramesAreStray :
    IsBuffer (diagBuffer 7 28) 7 28 ∧ 0 < 1 ∧ 31 < 32 ∧
    ({ testState .opened [] [] with transit := [.whole ((paintFrame 0x8F (diagBuffer 7 28)).take 3)] } : State).transit =
      .whole ((paintFrame 0x8F (diagBuffer 7 28)).take 3) :: [] ∧
    ({ testState .opened [] [] with transit := [.cut ((paintFrame 0x8F (diagBuffer 7 28)).take 32)] } : State).transit =
      .cut ((paintFrame 0x8F (diagBuffer 7 28)).take 32) :: [] := ⟨isBuffer_diag 7 28, by decide, by decide, rfl, rfl⟩

theorem witness_BytesThatAreNoFrameAreStray :
    decode (.frame [0x80, 0x85, 0x05, 0x8F]) = .error .unknownMode ∧
    decode (.frame [0x83, 0x05, 0x8F]) = .error .badHeader ∧ decode (.frame [0x80, 0x83, 0x05]) = .error .tooShort ∧
    decode (.frame [0x80, 0x83, 0x05, 0x8F]) = .ok (.frameDataRefresh 0x05 []) ∧
    ({ testState .opened [] [] with transit := [.whole [0x80, 0x85, 0x05, 0x8F]] } : State).transit =
      .whole [0x80, 0x85, 0x05, 0x8F] :: [] := by decide

theorem witness_PaintedWireParsesBack :
    parseWire (testState .opened [] [.done]).wire = some [] ∧ IsBuffer (diagBuffer 7 28) 7 28 ∧
    IsBuffer (diagBuffer 14 28) 14 28 ∧
    nextWith (exec (.paintSingle 0x05 (diagBuffer 7 28)) (testState .opened [] [.done])) (fun t =>
      t.wire.length == 32) = true ∧
    nextWith (exec (.paintDual 0x05 0x06 (diagBuffer 14 28)) (testState .opened [] [.done, .done])) (fun t =>
      t.wire.length == 64) = true ∧
    nextWith (exec (.openLink 0x05 0x06) (testState .closed [.ok] [.done, .done])) (fun t =>
      t.wire.length == 64) = true := by
  exact ⟨by decide, isBuffer_diag 7 28, isBuffer_diag 14 28, by decide +kernel, by decide +kernel, by decide +kernel⟩

/-- Two panels, at addresses 05 and 06, on an open link. -/
def twoPanels (as : List LinkAnswer) : State :=
  { testState .opened [] as with panels := [panelAt 0x05, panelAt 0x06] }

theorem witness_PaintSingleReachesThePanels :
    (twoPanels [.done]).linkState = .opened ∧ IsBuffer (diagBuffer 7 28) 7 28 ∧
    (twoPanels [.done]).linkAnswers = .done :: [] ∧ (twoPanels [.done]).transit = [] :=
  ⟨rfl, isBuffer_diag 7 28, rfl, rfl⟩

theorem witness_PaintDualReachesThePanels :
    (twoPanels [.done, .done]).linkState = .opened ∧ IsBuffer (diagBuffer 14 28) 14 28 ∧
    (twoPanels [.done, .done]).linkAnswers = .done :: .done :: [] ∧ (twoPanels [.done, .done]).transit = [] :=
  ⟨rfl, isBuffer_diag 14 28, rfl, rfl⟩

theorem witness_FailedSecondWriteLeavesTheBottomStale :
    (twoPanels [.done, .fail 0]).linkState = .opened ∧ IsBuffer (diagBuffer 14 28) 14 28 ∧
    (twoPanels [.done, .fail 0]).linkAnswers = .done :: .fail 0 :: [] ∧
    (twoPanels [.done, .fail 32]).linkAnswers = .done :: .fail 32 :: [] ∧ (twoPanels [.done, .fail 32]).transit = [] :=
  ⟨rfl, isBuffer_diag 14 28, rfl, rfl, rfl⟩

theorem witness_OpenBlanksTheAcceptingPanels :
    let s := { testState .closed [.ok] [.done, .done] with panels := [panelAt 0x05, panelAt 0x06] }
    s.linkState = .closed ∧ s.portAnswers = .ok :: [] ∧ s.linkAnswers = .done :: .done :: [] ∧ s.transit = [] ∧
    ∀ p ∈ s.panels, ∀ h ∈ p.heard, h.isStray = false := ⟨rfl, rfl, rfl, rfl, by simp [panelAt]⟩

end Sys2Proof.Tests
end

section
/-! SUPPORT. The switches of a panel and its address (R11, R144): `dipValue` and `switchesFor` undo each other, because
the switch positions and the bits of the address correspond one to one by DIP_MAP. Nothing here reads a value of DIP_MAP. -/

namespace Sys2Proof

/-- R144: a bit of DIP_VALUE is the switch that DIP_MAP sends to it. -/
theorem dipValue_getLsbD (switches : Vector Bool 8) (j : Fin 8) :
    (dipValue switches).getLsbD j = switches.get (Config.dipMap.symm j) :=
  byteOfBits_getLsbD _ j

/-- R193: a switch is set to the bit of the address that DIP_MAP sends it to. -/
theorem switchesFor_get (v : Byte) (i : Fin 8) : (switchesFor v).get i = v.getLsbD (Config.dipMap i) := by
  simp [switchesFor, Vector.get_eq_getElem]

theorem dipValue_switchesFor (v : Byte) : dipValue (switchesFor v) = v := by
  have bit (j : Fin 8) : (dipValue (switchesFor v)).getLsbD j = v.getLsbD j := by
    rw [dipValue_getLsbD, switchesFor_get, Equiv.apply_symm_apply]
  exact BitVec.eq_of_getLsbD_eq fun j hj => bit ⟨j, hj⟩

theorem switchesFor_dipValue (switches : Vector Bool 8) : switchesFor (dipValue switches) = switches := by
  have switch (i : Fin 8) : (switchesFor (dipValue switches)).get i = switches.get i := by
    rw [switchesFor_get, dipValue_getLsbD, Equiv.symm_apply_apply]
  exact Vector.ext fun i hi => switch ⟨i, hi⟩

/-- Settles O40: `switchesFor` is a two-sided inverse of `dipValue`, whatever DIP_MAP is. -/
theorem everyAddressIsOneSwitchSetting : Obligations.EveryAddressIsOneSwitchSetting :=
  ⟨Function.bijective_iff_has_inverse.mpr ⟨switchesFor, switchesFor_dipValue, dipValue_switchesFor⟩,
    dipValue_switchesFor⟩

end Sys2Proof
end

section
/-! SUPPORT. What an instruction and a step do, by the case: the link commands by LINK_STATE, the step by what waits at
the ports, and the principle for a step with everything on the panels' side as one case. -/

namespace Sys2Proof.Machine

/-! ### The command decoder (R68) -/

/-- R68: the command decoder answers no frame. -/
theorem decodeCommand_ne_frame {c : Command} {i : Instr} (h : decode (.command c) = .ok i) (f : Frame) :
    i ≠ f.instr := by
  rintro rfl
  rcases f with ⟨m, a, d⟩
  simp only [decode, decodeCommand] at h
  cases m <;> split_ifs at h <;> cases h

/-! ### The link commands by their link state (R120, R124, R127) -/

theorem exec_openLink_closed (top bottom : Byte) {s : State} (h : s.linkState = .closed) :
    exec (.openLink top bottom) s = .next (openPort { s with topAddr := top, bottomAddr := bottom }) := by
  simp [exec, execOpenLink, h]

theorem exec_openLink_opened (top bottom : Byte) {s : State} (h : s.linkState = .opened) :
    exec (.openLink top bottom) s = .next (endCommand .alreadyOpen s) := by simp [exec, execOpenLink, h]

theorem exec_closeLink_closed {s : State} (h : s.linkState = .closed) :
    exec .closeLink s = .next (endCommand .notOpen s) := by simp [exec, execCloseLink, h]

theorem exec_closeLink_opened {s : State} (h : s.linkState = .opened) :
    exec .closeLink s = .next (endCommand .ok { s with linkState := .closed }) := by simp [exec, execCloseLink, h]

theorem exec_sendRaw_closed (raw : List Byte) {s : State} (h : s.linkState = .closed) :
    exec (.sendRaw raw) s = .next (endCommand .notOpen s) := by simp [exec, execSendRaw, h]

theorem exec_sendRaw_opened (raw : List Byte) {s : State} (h : s.linkState = .opened) :
    exec (.sendRaw raw) s = .next (runWrites .keepLink [raw] s) := by simp [exec, execSendRaw, h]

/-! ### A step by what waits at the ports (R56, R61) -/

theorem step_frame {s : State} {b : List Byte} {xs : List Sent} {i : Instr} (hx : s.transit = .whole b :: xs)
    (hd : decode (.frame b) = .ok i) : step s = exec i { s with transit := xs } := by
  simp [step, nextAction, takeFromLink, hx, hd]

theorem step_noFrame {s : State} {b : List Byte} {xs : List Sent} {e : DecodeProblem}
    (hx : s.transit = .whole b :: xs) (hd : decode (.frame b) = .error e) :
    step s = .next (receiveStray b { s with transit := xs }) := by
  simp [step, nextAction, takeFromLink, hx, hd]

theorem step_cut {s : State} {b : List Byte} {xs : List Sent} (hx : s.transit = .cut b :: xs) :
    step s = .next (receiveStray b { s with transit := xs }) := by
  simp [step, nextAction, takeFromLink, hx]

theorem step_nothing {s : State} (hx : s.transit = []) (hp : s.phase = .idle) (hc : s.commands = []) :
    step s = .next s := by
  simp [step, nextAction, hx, hp, hc]

theorem step_command {s : State} {c : Command} {cs : List Command} {i : Instr} (hx : s.transit = [])
    (hp : s.phase = .idle) (hc : s.commands = c :: cs) (hd : decode (.command c) = .ok i) :
    step s = exec i { s with commands := cs } := by
  simp [step, nextAction, acceptCommand, hx, hp, hc, hd]

theorem step_illegal {s : State} {c : Command} {cs : List Command} {e : DecodeProblem} (hx : s.transit = [])
    (hp : s.phase = .idle) (hc : s.commands = c :: cs) (hd : decode (.command c) = .error e) :
    step s = .next (endCommand .illegalCommand { s with commands := cs }) := by
  simp [step, nextAction, acceptCommand, hx, hp, hc, hd]

theorem run_succ {M : Host.Core} {s u : M.State} (h : M.step s = .next u) (n : Nat) :
    M.run (n + 1) s = M.run n u := by simp [Host.Core.run, h]

/-- `step_induct` for a relation about the block: whatever reaches the panels changes their side only, and an idle
block's step is the same with nothing reaching them. -/
theorem step_induct_block (rel : State → State → Prop) (s t : State) (h : step s = .next t)
    (panels : ∀ xs ps, rel s { s with transit := xs, panels := ps })
    (goesOn : ∀ p, s.phase = .busy p → rel s (resume p s))
    (illegal : ∀ c cs, s.phase = .idle → s.commands = c :: cs →
      rel s (endCommand .illegalCommand { s with commands := cs }))
    (command : ∀ c cs i u, s.phase = .idle → s.commands = c :: cs → decode (.command c) = .ok i →
      exec i { s with commands := cs } = .next u → rel s u) : rel s t := by
  refine step_induct rel s t h (panels s.transit s.panels) goesOn illegal ?_ command ?_
  · intro b x xs _ _
    exact panels xs _
  · intro b xs i u _ hd hu
    obtain ⟨f, rfl, -⟩ := decodeFrame_ok hd
    rw [exec_frameInstr] at hu
    cases hu
    exact panels xs _

end Sys2Proof.Machine
end

section
/-! SUPPORT. The invariant of the encoder's record (R27 to R29), held to every step, and the values at power-on
(R25, R35). -/

namespace Sys2Proof.Machine

/-! ### WIRE and WRITE_LOG only grow (R27, R28) -/

/-- R27, R28: what a later state has of WIRE and WRITE_LOG continues what an earlier one had. -/
structure Appends (s t : State) : Prop where
  wire : s.wire <+: t.wire
  writeLog : s.writeLog <+: t.writeLog

theorem Appends.of_eq {s t : State} (hw : t.wire = s.wire) (hl : t.writeLog = s.writeLog) : Appends s t :=
  ⟨hw ▸ List.prefix_rfl, hl ▸ List.prefix_rfl⟩

theorem Appends.trans {s t u : State} (h : Appends s t) (h' : Appends t u) : Appends s u :=
  ⟨h.wire.trans h'.wire, h.writeLog.trans h'.writeLog⟩

/-- The start may be any state with the same WIRE and WRITE_LOG. -/
theorem Appends.from_eq {s t u : State} (h : Appends t u) (hw : t.wire = s.wire) (hl : t.writeLog = s.writeLog) :
    Appends s u := (Appends.of_eq hw hl).trans h

theorem txWrite_appends (b : List Byte) (a : LinkAnswer) (s : State) : Appends s (txWrite b a s) :=
  ⟨List.prefix_append .., List.prefix_append ..⟩

theorem runWrites_appends (m : OnFail) (bs : List (List Byte)) (s : State) : Appends s (runWrites m bs s) := by
  refine runWrites_induct m Appends ?nil ?unanswered ?done ?fail bs s
  case nil => exact fun s => .of_eq rfl rfl
  case unanswered => exact fun b bs s _ => .of_eq rfl rfl
  case done =>
    intro b s as t _ ih
    exact ((txWrite_appends b .done { s with linkAnswers := as }).trans ih).from_eq rfl rfl
  case fail => exact fun b s k as _ => ⟨by simp, by simp⟩

theorem openPort_appends (s : State) : Appends s (openPort s) :=
  openPort_induct Appends s (fun _ => .of_eq rfl rfl) (fun _ _ => .of_eq rfl rfl)
    (fun _ _ => (runWrites_appends _ _ _).from_eq rfl rfl)

theorem resume_appends (p : Progress) (s : State) : Appends s (resume p s) := by
  cases p with
  | opening q => exact openPort_appends s
  | writing m bs => exact runWrites_appends m bs s

theorem exec_appends {i : Instr} {s t : State} (h : exec i s = .next t) : Appends s t := by
  refine exec_induct Appends i s t h ?ended ?closed ?opening ?writing ?received
  case ended => exact fun c _ => .of_eq rfl rfl
  case closed => exact fun _ _ => .of_eq rfl rfl
  case opening => exact fun top bottom _ _ => (openPort_appends _).from_eq rfl rfl
  case writing => exact fun bs _ _ => runWrites_appends .keepLink bs s
  case received => exact fun f _ => .of_eq rfl rfl

theorem step_appends {s t : State} (h : step s = .next t) : Appends s t := by
  refine step_induct_block Appends s t h ?panels ?goesOn ?illegal ?command
  case panels => exact fun xs ps => .of_eq rfl rfl
  case goesOn => exact fun p _ => resume_appends p s
  case illegal => exact fun c cs _ _ => .of_eq rfl rfl
  case command => exact fun c cs i u _ _ _ hu => (exec_appends hu).from_eq rfl rfl

/-! ### The invariant (R28, R29, R120) -/

/-- R28: the two clauses of `State.Inv` about a WIRE and a WRITE_LOG, in which no phase takes part. -/
structure RecordAgrees (wire : List Byte) (log : List WriteRecord) : Prop where
  records : ∀ r ∈ log, r.consistent
  wireIsLog : wire = log.flatMap WriteRecord.bytes

theorem State.Inv.recordAgrees {s : State} (h : s.Inv) : RecordAgrees s.wire s.writeLog := ⟨h.records, h.wireIsLog⟩

/-- R28: nothing written is nothing recorded. -/
theorem recordAgrees_nil : RecordAgrees [] [] := ⟨by simp, rfl⟩

/-- R28, R44: a write adds its record, and the bytes of that record. -/
theorem RecordAgrees.append {wire : List Byte} {log : List WriteRecord} (h : RecordAgrees wire log) (b : List Byte)
    (a : LinkAnswer) : RecordAgrees (wire ++ a.emitted b) (log ++ [writeRecord b a]) where
  records r hr := by
    rcases List.mem_append.mp hr with hr | hr
    · exact h.records r hr
    · rw [List.mem_singleton.mp hr]
      exact writeRecord_consistent b a
  wireIsLog := by simp [h.wireIsLog, writeRecord_bytes]

/-- An IDLE block is in no command, so only the record counts. -/
theorem inv_of_idle {s : State} (hp : s.phase = .idle) (h : RecordAgrees s.wire s.writeLog) : s.Inv :=
  ⟨h.records, h.wireIsLog, by simp [hp], by simp [hp]⟩

theorem inv_endCommand (c : Code) (s : State) (h : RecordAgrees s.wire s.writeLog) : (endCommand c s).Inv :=
  inv_of_idle rfl h

/-- A wait for LINK has an open link and a write left to make. -/
theorem inv_waitIn_writing (m : OnFail) {bs : List (List Byte)} {s : State} (h : RecordAgrees s.wire s.writeLog)
    (ho : s.linkState = .opened) (hb : bs ≠ []) : (waitIn (.writing m bs) s).Inv where
  records := h.records
  wireIsLog := h.wireIsLog
  openingClosed q hq := by simp at hq
  writingOpen m' bs' hw := by
    simp only [waitIn_phase, Phase.busy.injEq, Progress.writing.injEq] at hw
    exact ⟨ho, hw.2 ▸ hb⟩

/-- A wait for PLATFORM has a closed link and holds the request of R120. -/
theorem inv_waitIn_opening {s : State} (h : RecordAgrees s.wire s.writeLog) (hc : s.linkState = .closed) :
    (waitIn (.opening Config.openRequest) s).Inv where
  records := h.records
  wireIsLog := h.wireIsLog
  openingClosed q hq := by
    simp only [waitIn_phase, Phase.busy.injEq, Progress.opening.injEq] at hq
    exact ⟨hc, hq.symm⟩
  writingOpen m bs hw := by simp at hw

/-- What the writes of a command do for the invariant: they need only an agreeing record and an open link to
start from. -/
def EstablishesInv (s t : State) : Prop := RecordAgrees s.wire s.writeLog → s.linkState = .opened → t.Inv

theorem runWrites_inv (m : OnFail) (bs : List (List Byte)) (s : State) : EstablishesInv s (runWrites m bs s) := by
  refine runWrites_induct m EstablishesInv ?nil ?unanswered ?done ?fail bs s
  case nil => exact fun s h _ => inv_endCommand .ok s h
  case unanswered => exact fun b bs s _ h ho => inv_waitIn_writing m h ho (List.cons_ne_nil b bs)
  case done => exact fun b s as t _ ih h ho => ih (h.append b .done) ho
  case fail => exact fun b s k as _ h _ => inv_endCommand .io _ (by simpa using h.append b (.fail k))

theorem openPort_inv {s : State} (h : RecordAgrees s.wire s.writeLog) (hc : s.linkState = .closed) :
    (openPort s).Inv := by
  refine openPort_induct (fun _ t => t.Inv) s ?unanswered ?fail ?ok
  case unanswered => exact fun _ => inv_waitIn_opening h hc
  case fail => exact fun ps _ => inv_endCommand .connection _ h
  case ok => exact fun ps _ => runWrites_inv .releaseLink _ _ h rfl

theorem resume_inv {s : State} (h : s.Inv) {p : Progress} (hp : s.phase = .busy p) : (resume p s).Inv := by
  cases p with
  | opening q => exact openPort_inv h.recordAgrees (h.openingClosed q hp).1
  | writing m bs => exact runWrites_inv m bs s h.recordAgrees (h.writingOpen m bs hp).1

theorem exec_inv {i : Instr} {s t : State} (h : s.Inv) (ht : exec i s = .next t) : t.Inv := by
  refine exec_induct (fun _ t => t.Inv) i s t ht ?ended ?closed ?opening ?writing ?received
  case ended => exact fun c _ => inv_endCommand c s h.recordAgrees
  case closed => exact fun _ _ => inv_endCommand .ok _ h.recordAgrees
  case opening => exact fun top bottom _ hc => openPort_inv h.recordAgrees hc
  case writing => exact fun bs _ ho => runWrites_inv .keepLink bs s h.recordAgrees ho
  case received => exact fun f _ => ⟨h.records, h.wireIsLog, h.openingClosed, h.writingOpen⟩

theorem step_inv {s t : State} (h : s.Inv) (ht : step s = .next t) : t.Inv := by
  refine step_induct_block (fun _ t => t.Inv) s t ht ?panels ?goesOn ?illegal ?command
  case panels => exact fun xs ps => ⟨h.records, h.wireIsLog, h.openingClosed, h.writingOpen⟩
  case goesOn => exact fun p hp => resume_inv h hp
  case illegal => exact fun c cs _ _ => inv_endCommand .illegalCommand _ h.recordAgrees
  case command =>
    intro c cs i u _ _ _ hu
    have hcs : { s with commands := cs }.Inv := ⟨h.records, h.wireIsLog, h.openingClosed, h.writingOpen⟩
    exact exec_inv hcs hu

/-- R25: no code is above 7. -/
theorem byte_toNat_le (c : Code) : c.byte.toNat ≤ 7 := by cases c <;> decide

/-- Settles O20: an end leaves an IDLE block, a wait for LINK has an open link and a write left, a wait for PLATFORM has
a closed link, and every write adds one consistent record with its bytes. -/
theorem stepKeepsTheRecordConsistent : Obligations.StepKeepsTheRecordConsistent :=
  fun _ _ h ht => step_inv h ht

/-- Settles O19: the only operation that touches WIRE or WRITE_LOG is `txWrite`, which appends to both. -/
theorem wireIsAppendOnly : Obligations.WireIsAppendOnly :=
  ⟨rfl, rfl, fun _ _ h => ⟨(step_appends h).wire, (step_appends h).writeLog⟩⟩

/-- Settles O21: after power-on the block is IDLE and its record is empty. -/
theorem powerOnRecordIsConsistent : Obligations.PowerOnRecordIsConsistent :=
  ⟨inv_of_idle rfl recordAgrees_nil, fun _ _ _ => inv_of_idle rfl recordAgrees_nil⟩

/-- Settles O22, by the fields of `State.powerOn` and of a power cycle. -/
theorem powerOnValues : Obligations.PowerOnValues :=
  ⟨powerOn_fields _ _ _, fun _ _ _ => ⟨rfl, rfl, rfl, rfl, rfl, rfl, rfl⟩⟩

/-- Settles O23: the table by evaluation, the bound for every code STATUS can hold. -/
theorem statusCodesAreTheTable : Obligations.StatusCodesAreTheTable :=
  ⟨rfl, rfl, rfl, rfl, rfl, rfl, rfl, rfl, fun s => byte_toNat_le s.status⟩

end Sys2Proof.Machine
end

section
/-! SUPPORT. Which commands write TOP_ADDR, BOTTOM_ADDR and LINK_STATE (R22 to R24, R120, R126). -/

namespace Sys2Proof.Machine

/-! ### TOP_ADDR and BOTTOM_ADDR (R23, R24) -/

/-- What `OpenPort()` and the writes after it leave as they are, of the block and of the command port. -/
structure KeepsAddresses (s t : State) : Prop where
  topAddr : t.topAddr = s.topAddr
  bottomAddr : t.bottomAddr = s.bottomAddr
  commands : t.commands = s.commands

theorem SameOutside.keepsAddresses {s t : State} (h : SameOutside s t) : KeepsAddresses s t :=
  ⟨h.topAddr, h.bottomAddr, h.commands⟩

theorem openPort_keepsAddresses (s : State) : KeepsAddresses s (openPort s) := by
  refine openPort_induct KeepsAddresses s ?unanswered ?fail ?ok
  case unanswered => exact fun _ => ⟨rfl, rfl, rfl⟩
  case fail => exact fun ps _ => ⟨rfl, rfl, rfl⟩
  case ok =>
    intro ps _
    obtain ⟨ht, hb, hc⟩ := (runWrites_sameOutside .releaseLink (dualFrames s.topAddr s.bottomAddr (zeroBuffer 14 28))
      { s with portAnswers := ps, linkState := .opened }).keepsAddresses
    exact ⟨ht, hb, hc⟩

theorem resume_keepsAddresses (p : Progress) (s : State) : KeepsAddresses s (resume p s) := by
  cases p with
  | opening q => exact openPort_keepsAddresses s
  | writing m bs => exact (runWrites_sameOutside m bs s).keepsAddresses

/-- R120: an instruction keeps the two addresses, or is an OPEN on a closed link and writes its operands there. -/
theorem exec_addresses {i : Instr} {s t : State} (h : exec i s = .next t) :
    (t.topAddr = s.topAddr ∧ t.bottomAddr = s.bottomAddr) ∨
    (s.linkState = .closed ∧ t.commands = s.commands ∧ i = .openLink t.topAddr t.bottomAddr) := by
  apply exec_induct (h := h)
  case ended => exact fun c _ => .inl ⟨rfl, rfl⟩
  case closed => exact fun _ _ => .inl ⟨rfl, rfl⟩
  case opening =>
    intro top bottom hi hc
    obtain ⟨ht, hb, hcs⟩ := openPort_keepsAddresses { s with topAddr := top, bottomAddr := bottom }
    exact .inr ⟨hc, hcs, by rw [hi, ht, hb]⟩
  case writing =>
    intro bs _ _
    have hk := (runWrites_sameOutside .keepLink bs s).keepsAddresses
    exact .inl ⟨hk.topAddr, hk.bottomAddr⟩
  case received => exact fun f _ => .inl ⟨rfl, rfl⟩

/-- Settles O24: of what a step can do, only an OPEN taken on a closed link writes the addresses. -/
theorem onlyOpenWritesTheAddresses : Obligations.OnlyOpenWritesTheAddresses := by
  intro s t h
  apply step_induct_block (h := h)
  case panels => exact fun xs ps => .inl ⟨rfl, rfl⟩
  case goesOn =>
    intro p _
    have hk := resume_keepsAddresses p s
    exact .inl ⟨hk.topAddr, hk.bottomAddr⟩
  case illegal => exact fun c cs _ _ => .inl ⟨rfl, rfl⟩
  case command =>
    intro c cs i u hp hcs hd hu
    rcases exec_addresses hu with hkept | ⟨hc, hucs, rfl⟩
    · exact .inl hkept
    · exact .inr ⟨c, u.topAddr, u.bottomAddr, hp, hc, by rw [hcs, hucs], hd, rfl, rfl⟩

/-! ### LINK_STATE (R22, R126) -/

/-- R121, R168: what writes do to LINK_STATE: nothing, or an IO end releases the link, where the command is OPEN. -/
def KeepsOrReleases (m : OnFail) (s t : State) : Prop :=
  t.linkState = s.linkState ∨ (m = .releaseLink ∧ t.status = .io)

theorem runWrites_linkState (m : OnFail) (bs : List (List Byte)) (s : State) :
    KeepsOrReleases m s (runWrites m bs s) := by
  refine runWrites_induct m (KeepsOrReleases m) ?nil ?unanswered ?done ?fail bs s
  case nil => exact fun s => .inl rfl
  case unanswered => exact fun b bs s _ => .inl rfl
  case done => exact fun b s as t _ ih => ih
  case fail =>
    intro b s k as _
    cases m with
    | keepLink => exact .inl rfl
    | releaseLink => exact .inr ⟨rfl, rfl⟩

theorem runWrites_keepLink_linkState (bs : List (List Byte)) (s : State) :
    (runWrites .keepLink bs s).linkState = s.linkState :=
  (runWrites_linkState .keepLink bs s).resolve_right (by simp)

/-- An instruction that changes LINK_STATE is CLOSE on an open link or OPEN on a closed one. -/
theorem exec_linkState {i : Instr} {s t : State} (h : exec i s = .next t) (hne : t.linkState ≠ s.linkState) :
    t.commands = s.commands ∧
    ((s.linkState = .opened ∧ i = .closeLink) ∨
      (s.linkState = .closed ∧ ∃ top bottom, i = .openLink top bottom)) := by
  revert hne
  apply exec_induct (h := h)
  case ended => exact fun c _ hne => absurd rfl hne
  case closed => exact fun hi ho _ => ⟨rfl, .inl ⟨ho, hi⟩⟩
  case opening =>
    intro top bottom hi hc _
    exact ⟨(openPort_keepsAddresses _).commands, .inr ⟨hc, top, bottom, hi⟩⟩
  case writing => exact fun bs _ _ hne => absurd (runWrites_keepLink_linkState bs s) hne
  case received => exact fun f _ hne => absurd rfl hne

/-- Settles O25: a command that changes the link is CLOSE or OPEN; one that goes on is an OPEN waiting for PLATFORM,
whose link is closed by the invariant, or writes on an open link, of which only OPEN's blank paint releases it. -/
theorem onlyOpenAndCloseChangeTheLink : Obligations.OnlyOpenAndCloseChangeTheLink := by
  intro s t hinv h
  apply step_induct_block (h := h)
  case panels => exact fun xs ps hne => absurd rfl hne
  case goesOn =>
    intro p hp hne
    cases p with
    | opening q => exact .inr ⟨(hinv.openingClosed q hp).1, .inr ⟨q, hp⟩⟩
    | writing m bs =>
      obtain ⟨rfl, hio⟩ := (runWrites_linkState m bs s).resolve_left hne
      exact .inl ⟨(hinv.writingOpen _ bs hp).1, .inr ⟨bs, hp, hio⟩⟩
  case illegal => exact fun c cs _ _ hne => absurd rfl hne
  case command =>
    intro c cs i u hp hcs hd hu hne
    obtain ⟨hucs, ⟨ho, rfl⟩ | ⟨hc, top, bottom, rfl⟩⟩ := exec_linkState hu hne
    · exact .inl ⟨ho, .inl ⟨c, hp, by rw [hcs, hucs], hd⟩⟩
    · exact .inr ⟨hc, .inl ⟨c, top, bottom, hp, by rw [hcs, hucs], hd⟩⟩

end Sys2Proof.Machine
end

section
/-! SUPPORT. What the block's behaviour does not depend on: its record and its past (R20, R26, R43), the panels
(R34, R206), and TOP_ADDR and BOTTOM_ADDR before OPEN (R35). -/

namespace Sys2Proof.Machine

/-! ### The record, STATUS and earlier responses (R20, R26, R43) -/

/-- From `s` to `t` and from `s'` to `t'` the block does the same: the same inputs are left, and the same bytes, records
and responses are added; STATUS is the same where there is a response. -/
def SameEffect (s s' t t' : State) : Prop :=
  t.sameInputs t' ∧
  ∃ (w : List Byte) (l : List WriteRecord) (r : List Code),
    t.wire = s.wire ++ w ∧ t'.wire = s'.wire ++ w ∧ t.writeLog = s.writeLog ++ l ∧ t'.writeLog = s'.writeLog ++ l ∧
    t.responses = s.responses ++ r ∧ t'.responses = s'.responses ++ r ∧ (r ≠ [] → t.status = t'.status)

/-- Nothing is written and no response is given. -/
theorem sameEffect_silent {s s' t t' : State} (h : t.sameInputs t')
    (hs : t.wire = s.wire ∧ t.writeLog = s.writeLog ∧ t.responses = s.responses)
    (hs' : t'.wire = s'.wire ∧ t'.writeLog = s'.writeLog ∧ t'.responses = s'.responses) : SameEffect s s' t t' := by
  obtain ⟨hw, hl, hr⟩ := hs
  obtain ⟨hw', hl', hr'⟩ := hs'
  exact ⟨h, [], [], [], by simp [hw, hl, hr, hw', hl', hr']⟩

theorem sameEffect_waitIn {s s' : State} (h : s.sameInputs s') (p : Progress) :
    SameEffect s s' (waitIn p s) (waitIn p s') := by
  obtain ⟨-, hrest⟩ := h
  exact sameEffect_silent ⟨rfl, hrest⟩ ⟨rfl, rfl, rfl⟩ ⟨rfl, rfl, rfl⟩

theorem sameEffect_endCommand {s s' : State} (h : s.sameInputs s') (c : Code) :
    SameEffect s s' (endCommand c s) (endCommand c s') := by
  obtain ⟨-, hrest⟩ := h
  exact ⟨⟨rfl, hrest⟩, [], [], [c], by simp⟩

/-- What follows one and the same write adds to what that write added. -/
theorem SameEffect.after_txWrite {s s' t t' : State} (b : List Byte) (a : LinkAnswer)
    (h : SameEffect (txWrite b a s) (txWrite b a s') t t') : SameEffect s s' t t' := by
  obtain ⟨hin, w, l, r, hw, hw', hl, hl', hr, hr', hst⟩ := h
  exact ⟨hin, a.emitted b ++ w, writeRecord b a :: l, r, by simp [hw], by simp [hw'], by simp [hl], by simp [hl'],
    hr, hr', hst⟩

/-- A write leaves the same inputs to both, with LINK's answer taken from them. -/
theorem sameInputs_txWrite {s s' : State} (h : s.sameInputs s') (b : List Byte) (a : LinkAnswer)
    (as : List LinkAnswer) :
    (txWrite b a { s with linkAnswers := as }).sameInputs (txWrite b a { s' with linkAnswers := as }) := by
  obtain ⟨hp, hl, ht, hb, hc, -, hpa⟩ := h
  exact ⟨hp, hl, ht, hb, hc, rfl, hpa⟩

theorem sameEffect_release_end {s s' : State} (h : s.sameInputs s') (m : OnFail) (c : Code) :
    SameEffect s s' (endCommand c (m.release s)) (endCommand c (m.release s')) := by
  cases m with
  | keepLink => exact sameEffect_endCommand h c
  | releaseLink =>
    obtain ⟨hp, -, hrest⟩ := h
    exact sameEffect_endCommand (s := { s with linkState := .closed }) (s' := { s' with linkState := .closed })
      ⟨hp, rfl, hrest⟩ c

theorem runWrites_sameEffect (m : OnFail) (bs : List (List Byte)) {s s' : State} (h : s.sameInputs s') :
    SameEffect s s' (runWrites m bs s) (runWrites m bs s') := by
  induction bs generalizing s s' with
  | nil => exact sameEffect_endCommand h .ok
  | cons b bs ih =>
    have ⟨_, _, _, _, _, hla, _⟩ := h
    match ha : s'.linkAnswers with
    | [] =>
      rw [runWrites_unanswered m b bs s (hla.trans ha), runWrites_unanswered m b bs s' ha]
      exact sameEffect_waitIn h _
    | .done :: as =>
      rw [runWrites_done m b bs s as (hla.trans ha), runWrites_done m b bs s' as ha]
      exact (ih (sameInputs_txWrite h b .done as)).after_txWrite
    | .fail k :: as =>
      rw [runWrites_fail m b bs s k as (hla.trans ha), runWrites_fail m b bs s' k as ha]
      exact (sameEffect_release_end (sameInputs_txWrite h b (.fail k) as) m .io).after_txWrite

theorem openPort_sameEffect {s s' : State} (h : s.sameInputs s') : SameEffect s s' (openPort s) (openPort s') := by
  have ⟨hp, hl, ht, hb, hc, hla, hpa⟩ := h
  match ha : s'.portAnswers with
  | [] =>
    rw [openPort_unanswered s (hpa.trans ha), openPort_unanswered s' ha]
    exact sameEffect_waitIn h _
  | .fail :: ps =>
    rw [openPort_fail s ps (hpa.trans ha), openPort_fail s' ps ha]
    exact sameEffect_endCommand (s := { s with portAnswers := ps }) (s' := { s' with portAnswers := ps })
      ⟨hp, hl, ht, hb, hc, hla, rfl⟩ .connection
  | .ok :: ps =>
    have hframes : dualFrames s.topAddr s.bottomAddr (zeroBuffer 14 28) =
        dualFrames s'.topAddr s'.bottomAddr (zeroBuffer 14 28) := by rw [ht, hb]
    rw [openPort_ok s ps (hpa.trans ha), openPort_ok s' ps ha, hframes]
    exact runWrites_sameEffect (s := { s with portAnswers := ps, linkState := .opened })
      (s' := { s' with portAnswers := ps, linkState := .opened }) _ _ ⟨hp, rfl, ht, hb, hc, hla, rfl⟩

theorem paint_sameEffect (P : PixelOperand) (R C : Nat) (fs : List (List Byte)) {s s' : State}
    (h : s.sameInputs s') : SameEffect s s' (paint P R C fs s) (paint P R C fs s') := by
  have ⟨_, hl, _⟩ := h
  cases ho : s'.linkState with
  | closed =>
    rw [paint_closed P R C fs s (hl.trans ho), paint_closed P R C fs s' ho]
    exact sameEffect_endCommand h .notOpen
  | opened =>
    by_cases hv : validate P R C = .ok
    · rw [paint_valid P R C fs s (hl.trans ho) hv, paint_valid P R C fs s' ho hv]
      exact runWrites_sameEffect .keepLink fs h
    · rw [paint_invalid P R C fs s (hl.trans ho) hv, paint_invalid P R C fs s' ho hv]
      exact sameEffect_endCommand h _

theorem receiveFrame_sameEffect (f : Frame) {s s' : State} (h : s.sameInputs s') :
    SameEffect s s' (receiveFrame f s) (receiveFrame f s') :=
  sameEffect_silent h ⟨rfl, rfl, rfl⟩ ⟨rfl, rfl, rfl⟩

/-- An instruction answers from both states, with the same effect. -/
theorem exec_sameEffect (i : Instr) {s s' : State} (h : s.sameInputs s') :
    ∃ t t', exec i s = .next t ∧ exec i s' = .next t' ∧ SameEffect s s' t t' := by
  have ⟨hp, hl, hta, hba, hrest⟩ := h
  cases i with
  | openLink top bottom =>
    cases ho : s'.linkState with
    | closed =>
      exact ⟨_, _, exec_openLink_closed top bottom (hl.trans ho), exec_openLink_closed top bottom ho,
        openPort_sameEffect (s := { s with topAddr := top, bottomAddr := bottom })
          (s' := { s' with topAddr := top, bottomAddr := bottom }) ⟨hp, hl, rfl, rfl, hrest⟩⟩
    | opened =>
      exact ⟨_, _, exec_openLink_opened top bottom (hl.trans ho), exec_openLink_opened top bottom ho,
        sameEffect_endCommand h .alreadyOpen⟩
  | closeLink =>
    cases ho : s'.linkState with
    | closed =>
      exact ⟨_, _, exec_closeLink_closed (hl.trans ho), exec_closeLink_closed ho, sameEffect_endCommand h .notOpen⟩
    | opened =>
      exact ⟨_, _, exec_closeLink_opened (hl.trans ho), exec_closeLink_opened ho,
        sameEffect_endCommand (s := { s with linkState := .closed }) (s' := { s' with linkState := .closed })
          ⟨hp, rfl, hta, hba, hrest⟩ .ok⟩
  | paintSingle addr P => exact ⟨_, _, rfl, rfl, paint_sameEffect _ _ _ _ h⟩
  | paintDual top bottom P => exact ⟨_, _, rfl, rfl, paint_sameEffect _ _ _ _ h⟩
  | paintDualDefault P =>
    refine ⟨_, _, rfl, rfl, ?_⟩
    rw [hta, hba]
    exact paint_sameEffect _ _ _ _ h
  | sendRaw raw =>
    cases ho : s'.linkState with
    | closed =>
      exact ⟨_, _, exec_sendRaw_closed raw (hl.trans ho), exec_sendRaw_closed raw ho, sameEffect_endCommand h .notOpen⟩
    | opened =>
      exact ⟨_, _, exec_sendRaw_opened raw (hl.trans ho), exec_sendRaw_opened raw ho,
        runWrites_sameEffect .keepLink [raw] h⟩
  | frameRefresh addr data => exact ⟨_, _, rfl, rfl, receiveFrame_sameEffect _ h⟩
  | frameDataRefresh addr data => exact ⟨_, _, rfl, rfl, receiveFrame_sameEffect _ h⟩
  | frameDataNoRefresh addr data => exact ⟨_, _, rfl, rfl, receiveFrame_sameEffect _ h⟩

/-- Settles O36: each operation of a command has the same effect from two states with the same inputs. -/
theorem noCommandReadsTheRecord : Obligations.NoCommandReadsTheRecord := by
  intro i s s' t t' h ht ht'
  obtain ⟨u, u', hu, hu', heffect⟩ := exec_sameEffect i h
  cases hu.symm.trans ht
  cases hu'.symm.trans ht'
  exact heffect

/-! ### The panels (R34, R206) -/

/-- Any other panels on the link. -/
def State.withPanels (ps : List Panel) (s : State) : State := { s with panels := ps }

theorem runWrites_withPanels (ps : List Panel) (m : OnFail) (bs : List (List Byte)) (s : State) :
    runWrites m bs (s.withPanels ps) = (runWrites m bs s).withPanels ps := by
  induction bs generalizing s with
  | nil => rfl
  | cons b bs ih =>
    match ha : s.linkAnswers with
    | [] => rw [runWrites_unanswered m b bs s ha, runWrites_unanswered m b bs (s.withPanels ps) ha]; rfl
    | .done :: as => rw [runWrites_done m b bs s as ha, runWrites_done m b bs (s.withPanels ps) as ha, ← ih]; rfl
    | .fail k :: as =>
      rw [runWrites_fail m b bs s k as ha, runWrites_fail m b bs (s.withPanels ps) k as ha]
      cases m <;> rfl

theorem openPort_withPanels (ps : List Panel) (s : State) :
    openPort (s.withPanels ps) = (openPort s).withPanels ps := by
  match ha : s.portAnswers with
  | [] => rw [openPort_unanswered s ha, openPort_unanswered (s.withPanels ps) ha]; rfl
  | .fail :: as => rw [openPort_fail s as ha, openPort_fail (s.withPanels ps) as ha]; rfl
  | .ok :: as =>
    rw [openPort_ok s as ha, openPort_ok (s.withPanels ps) as ha, ← runWrites_withPanels]
    rfl

theorem paint_withPanels (ps : List Panel) (P : PixelOperand) (R C : Nat) (fs : List (List Byte)) (s : State) :
    paint P R C fs (s.withPanels ps) = (paint P R C fs s).withPanels ps := by
  cases ho : s.linkState with
  | closed => rw [paint_closed P R C fs s ho, paint_closed P R C fs (s.withPanels ps) ho]; rfl
  | opened =>
    by_cases hv : validate P R C = .ok
    · rw [paint_valid P R C fs s ho hv, paint_valid P R C fs (s.withPanels ps) ho hv, runWrites_withPanels]
    · rw [paint_invalid P R C fs s ho hv, paint_invalid P R C fs (s.withPanels ps) ho hv]; rfl

/-- An instruction of the block does the same with any other panels. -/
theorem exec_withPanels (ps : List Panel) {i : Instr} (hi : ∀ f : Frame, i ≠ f.instr) (s : State) :
    ∃ t, exec i s = .next t ∧ exec i (s.withPanels ps) = .next (t.withPanels ps) := by
  cases i with
  | openLink top bottom =>
    cases ho : s.linkState with
    | closed =>
      refine ⟨_, exec_openLink_closed top bottom ho, ?_⟩
      rw [← openPort_withPanels]
      exact exec_openLink_closed top bottom ho
    | opened => exact ⟨_, exec_openLink_opened top bottom ho, exec_openLink_opened (s := s.withPanels ps) top bottom ho⟩
  | closeLink =>
    cases ho : s.linkState with
    | closed => exact ⟨_, exec_closeLink_closed ho, exec_closeLink_closed (s := s.withPanels ps) ho⟩
    | opened => exact ⟨_, exec_closeLink_opened ho, exec_closeLink_opened (s := s.withPanels ps) ho⟩
  | paintSingle addr P => exact ⟨_, rfl, congrArg _ (paint_withPanels ..)⟩
  | paintDual top bottom P => exact ⟨_, rfl, congrArg _ (paint_withPanels ..)⟩
  | paintDualDefault P => exact ⟨_, rfl, congrArg _ (paint_withPanels ..)⟩
  | sendRaw raw =>
    cases ho : s.linkState with
    | closed => exact ⟨_, exec_sendRaw_closed raw ho, exec_sendRaw_closed (s := s.withPanels ps) raw ho⟩
    | opened =>
      refine ⟨_, exec_sendRaw_opened raw ho, ?_⟩
      rw [← runWrites_withPanels]
      exact exec_sendRaw_opened raw ho
  | frameRefresh addr data => exact absurd rfl (hi { mode := .refresh, addr := addr, data := data })
  | frameDataRefresh addr data => exact absurd rfl (hi { mode := .dataRefresh, addr := addr, data := data })
  | frameDataNoRefresh addr data => exact absurd rfl (hi { mode := .dataNoRefresh, addr := addr, data := data })

/-- A command leaves the panels as they are: it does so with the panels that stand there too. -/
theorem exec_panels {i : Instr} (hi : ∀ f : Frame, i ≠ f.instr) {s t : State} (h : exec i s = .next t) :
    t.panels = s.panels := by
  obtain ⟨u, hu, hu'⟩ := exec_withPanels s.panels hi s
  have hut : u.withPanels s.panels = t := Host.Outcome.next.inj (hu'.symm.trans h)
  rw [← hut]
  rfl

/-- Settles O37: no operation of a command reads or writes the panels. -/
theorem panelsNeverAffectACommand : Obligations.PanelsNeverAffectACommand := by
  intro c i s ps hd
  have hi := decodeCommand_ne_frame hd
  obtain ⟨t, ht, ht'⟩ := exec_withPanels ps hi s
  exact ⟨t, ht, exec_panels hi ht, ht'⟩

/-! ### The addresses before OPEN (R23, R24, R35) -/

/-- Any other values of TOP_ADDR and BOTTOM_ADDR. -/
def State.withAddresses (top bottom : Byte) (s : State) : State := { s with topAddr := top, bottomAddr := bottom }

/-- R35: the second of two runs is where the first is, or both are IDLE on a closed link and the second has other
addresses. -/
def UpToAddresses (top bottom : Byte) (s s' : State) : Prop :=
  s' = s ∨ (s.phase = .idle ∧ s.linkState = .closed ∧ s' = s.withAddresses top bottom)

/-- On a closed link OPEN writes the same addresses over both; any other command is rejected before it reads them. -/
theorem exec_upToAddresses (top bottom : Byte) (i : Instr) {s : State} (hp : s.phase = .idle)
    (hl : s.linkState = .closed) :
    ∃ t t', exec i s = .next t ∧ exec i (s.withAddresses top bottom) = .next t' ∧ UpToAddresses top bottom t t' := by
  have rejected : UpToAddresses top bottom (endCommand .notOpen s)
      (endCommand .notOpen (s.withAddresses top bottom)) := .inr ⟨rfl, hl, rfl⟩
  have painted : ∀ P R C fs fs', UpToAddresses top bottom (paint P R C fs s)
      (paint P R C fs' (s.withAddresses top bottom)) := by
    intro P R C fs fs'
    rw [paint_closed P R C fs s hl, paint_closed P R C fs' (s.withAddresses top bottom) hl]
    exact rejected
  cases i with
  | openLink a b =>
    exact ⟨_, _, exec_openLink_closed a b hl, exec_openLink_closed (s := s.withAddresses top bottom) a b hl, .inl rfl⟩
  | closeLink =>
    exact ⟨_, _, exec_closeLink_closed hl, exec_closeLink_closed (s := s.withAddresses top bottom) hl, rejected⟩
  | paintSingle addr P => exact ⟨_, _, rfl, rfl, painted _ _ _ _ _⟩
  | paintDual a b P => exact ⟨_, _, rfl, rfl, painted _ _ _ _ _⟩
  | paintDualDefault P => exact ⟨_, _, rfl, rfl, painted _ _ _ _ _⟩
  | sendRaw raw =>
    exact ⟨_, _, exec_sendRaw_closed raw hl, exec_sendRaw_closed (s := s.withAddresses top bottom) raw hl, rejected⟩
  | frameRefresh addr data => exact ⟨_, _, rfl, rfl, .inr ⟨hp, hl, rfl⟩⟩
  | frameDataRefresh addr data => exact ⟨_, _, rfl, rfl, .inr ⟨hp, hl, rfl⟩⟩
  | frameDataNoRefresh addr data => exact ⟨_, _, rfl, rfl, .inr ⟨hp, hl, rfl⟩⟩

theorem step_upToAddresses (top bottom : Byte) {s : State} (hp : s.phase = .idle) (hl : s.linkState = .closed) :
    ∃ t t', step s = .next t ∧ step (s.withAddresses top bottom) = .next t' ∧ UpToAddresses top bottom t t' := by
  match hx : s.transit with
  | .whole b :: xs =>
    cases hd : decode (.frame b) with
    | ok i =>
      rw [step_frame hx hd, step_frame (s := s.withAddresses top bottom) hx hd]
      exact exec_upToAddresses top bottom i hp hl
    | error e =>
      exact ⟨_, _, step_noFrame hx hd, step_noFrame (s := s.withAddresses top bottom) hx hd, .inr ⟨hp, hl, rfl⟩⟩
  | .cut b :: xs => exact ⟨_, _, step_cut hx, step_cut (s := s.withAddresses top bottom) hx, .inr ⟨hp, hl, rfl⟩⟩
  | [] =>
    match hc : s.commands with
    | [] =>
      exact ⟨_, _, step_nothing hx hp hc, step_nothing (s := s.withAddresses top bottom) hx hp hc, .inr ⟨hp, hl, rfl⟩⟩
    | c :: cs =>
      cases hd : decode (.command c) with
      | ok i =>
        rw [step_command hx hp hc hd, step_command (s := s.withAddresses top bottom) hx hp hc hd]
        exact exec_upToAddresses top bottom i hp hl
      | error e =>
        exact ⟨_, _, step_illegal hx hp hc hd, step_illegal (s := s.withAddresses top bottom) hx hp hc hd,
          .inr ⟨rfl, hl, rfl⟩⟩

theorem run_upToAddresses (top bottom : Byte) (n : Nat) {s s' t : State} (h : UpToAddresses top bottom s s')
    (ht : Sys2Proof.core.run n s = .next t) :
    ∃ t', Sys2Proof.core.run n s' = .next t' ∧ UpToAddresses top bottom t t' := by
  induction n generalizing s s' with
  | zero => cases ht; exact ⟨s', rfl, h⟩
  | succ n ih =>
    rcases h with rfl | ⟨hp, hl, rfl⟩
    · exact ⟨t, ht, .inl rfl⟩
    · obtain ⟨u, u', hu, hu', huu'⟩ := step_upToAddresses top bottom hp hl
      have first := run_succ (M := Sys2Proof.core) hu n
      have second := run_succ (M := Sys2Proof.core) hu' n
      obtain ⟨t', ht', hend⟩ := ih huu' (first.symm.trans ht)
      exact ⟨t', second.trans ht', hend⟩

/-- Settles O38: on a closed link every command but OPEN is rejected without reading the addresses, and OPEN writes them
first, so the two runs differ in the addresses alone until they meet. -/
theorem powerOnAddressesAreUnobservable : Obligations.PowerOnAddressesAreUnobservable := by
  intro n s t top bottom hp hl ht
  obtain ⟨t', ht', rfl | ⟨-, hl', rfl⟩⟩ := run_upToAddresses top bottom n (.inr ⟨hp, hl, rfl⟩) ht
  · exact ⟨t', ht', rfl, fun _ => rfl⟩
  · exact ⟨_, ht', rfl, fun ho => by simp [hl'] at ho⟩

end Sys2Proof.Machine
end

section
/-! SUPPORT. A command and the time its answers come (R46, R57, R122): a wait for an answer changes nothing, and a command
that goes on from its wait does what it does when the answers were there from the start. -/

namespace Sys2Proof.Machine

/-! ### A wait (R46, R122, R191) -/

/-- A block that is BUSY with `p` already waits in `p`. -/
theorem waitIn_of_phase {p : Progress} {s : State} (h : s.phase = .busy p) : waitIn p s = s := by
  rw [waitIn, ← h]

theorem step_busy {s : State} {p : Progress} (hx : s.transit = []) (hp : s.phase = .busy p) :
    step s = .next (resume p s) := by
  simp [step, nextAction, hx, hp]

/-- Settles O16: a block that goes on without its answer waits where it already waits. -/
theorem anUnansweredBlockWaits : Obligations.AnUnansweredBlockWaits := by
  intro s hx
  refine ⟨?writing, ?opening, step_nothing hx⟩
  case writing =>
    intro m b bs hp ha
    rw [step_busy hx hp, resume, runWrites_unanswered m b bs s ha, waitIn_of_phase hp]
  case opening =>
    intro hp ha
    rw [step_busy hx hp, resume, openPort_unanswered s ha, waitIn_of_phase hp]

/-! ### The wait leaves no trace -/

/-- The writes of a command do not read PHASE: having waited makes no difference to them. -/
theorem runWrites_waitIn (p : Progress) (m : OnFail) (bs : List (List Byte)) (s : State) :
    runWrites m bs (waitIn p s) = runWrites m bs s := by
  induction bs generalizing s with
  | nil => rfl
  | cons b bs ih =>
    match ha : s.linkAnswers with
    | [] => rw [runWrites_unanswered m b bs s ha, runWrites_unanswered m b bs (waitIn p s) ha]; rfl
    | .done :: as =>
      rw [runWrites_done m b bs s as ha, runWrites_done m b bs (waitIn p s) as ha]
      exact ih (txWrite b .done { s with linkAnswers := as })
    | .fail k :: as =>
      rw [runWrites_fail m b bs s k as ha, runWrites_fail m b bs (waitIn p s) k as ha]
      cases m <;> rfl

theorem openPort_waitIn (p : Progress) (s : State) : openPort (waitIn p s) = openPort s := by
  match ha : s.portAnswers with
  | [] => rw [openPort_unanswered s ha, openPort_unanswered (waitIn p s) ha]; rfl
  | .fail :: ps => rw [openPort_fail s ps ha, openPort_fail (waitIn p s) ps ha]; rfl
  | .ok :: ps =>
    rw [openPort_ok s ps ha, openPort_ok (waitIn p s) ps ha]
    exact runWrites_waitIn p .releaseLink _ { s with portAnswers := ps, linkState := .opened }

theorem resume_waitIn (p q : Progress) (s : State) : resume p (waitIn q s) = resume p s := by
  cases p with
  | opening r => exact openPort_waitIn q s
  | writing m bs => exact runWrites_waitIn q m bs s

/-! ### Answers that come later (R57) -/

/-- Further answers of LINK and of PLATFORM have come. -/
def State.replies (as : List LinkAnswer) (ps : List PortAnswer) (s : State) : State :=
  (s.linkReplies as).platformReplies ps

theorem replies_linkOnly (as : List LinkAnswer) (s : State) : s.replies as [] = s.linkReplies as := by
  simp [State.replies, State.platformReplies, State.linkReplies]

theorem replies_platformOnly (ps : List PortAnswer) (s : State) : s.replies [] ps = s.platformReplies ps := by
  simp [State.replies, State.linkReplies]

/-- What the block makes of answers that have come: a waiting command goes on, and an IDLE block stays as it is. -/
def State.goOn (s : State) : State :=
  match s.phase with
  | .idle => s
  | .busy p => resume p s

theorem goOn_idle {s : State} (h : s.phase = .idle) : s.goOn = s := by simp [State.goOn, h]

/-- A command that waits in `p` goes on with answers that come later as it does from `p` with them already there. -/
theorem goOn_waitIn_replies (as : List LinkAnswer) (ps : List PortAnswer) (p : Progress) (s : State) :
    ((waitIn p s).replies as ps).goOn = resume p (s.replies as ps) :=
  resume_waitIn p p (s.replies as ps)

theorem runWrites_replies (as : List LinkAnswer) (ps : List PortAnswer) (m : OnFail) (bs : List (List Byte))
    (s : State) : runWrites m bs (s.replies as ps) = ((runWrites m bs s).replies as ps).goOn := by
  induction bs generalizing s with
  | nil => rfl
  | cons b bs ih =>
    match ha : s.linkAnswers with
    | [] => rw [runWrites_unanswered m b bs s ha, goOn_waitIn_replies, resume]
    | .done :: rest =>
      have ha' : (s.replies as ps).linkAnswers = .done :: (rest ++ as) := congrArg (· ++ as) ha
      rw [runWrites_done m b bs s rest ha, runWrites_done m b bs (s.replies as ps) _ ha', ← ih]
      rfl
    | .fail k :: rest =>
      have ha' : (s.replies as ps).linkAnswers = .fail k :: (rest ++ as) := congrArg (· ++ as) ha
      rw [runWrites_fail m b bs s k rest ha, runWrites_fail m b bs (s.replies as ps) k _ ha']
      cases m <;> rfl

theorem openPort_replies (as : List LinkAnswer) (ps : List PortAnswer) (s : State) :
    openPort (s.replies as ps) = ((openPort s).replies as ps).goOn := by
  match ha : s.portAnswers with
  | [] => rw [openPort_unanswered s ha, goOn_waitIn_replies, resume]
  | .fail :: rest =>
    have ha' : (s.replies as ps).portAnswers = .fail :: (rest ++ ps) := congrArg (· ++ ps) ha
    rw [openPort_fail s rest ha, openPort_fail (s.replies as ps) _ ha']
    rfl
  | .ok :: rest =>
    have ha' : (s.replies as ps).portAnswers = .ok :: (rest ++ ps) := congrArg (· ++ ps) ha
    rw [openPort_ok s rest ha, openPort_ok (s.replies as ps) _ ha', ← runWrites_replies]
    rfl

theorem paint_replies (as : List LinkAnswer) (ps : List PortAnswer) (P : PixelOperand) (R C : Nat)
    (fs : List (List Byte)) (s : State) :
    paint P R C fs (s.replies as ps) = ((paint P R C fs s).replies as ps).goOn := by
  cases ho : s.linkState with
  | closed => rw [paint_closed P R C fs s ho, paint_closed P R C fs (s.replies as ps) ho]; rfl
  | opened =>
    by_cases hv : validate P R C = .ok
    · rw [paint_valid P R C fs s ho hv, paint_valid P R C fs (s.replies as ps) ho hv, runWrites_replies]
    · rw [paint_invalid P R C fs s ho hv, paint_invalid P R C fs (s.replies as ps) ho hv]; rfl

theorem receiveFrame_replies (as : List LinkAnswer) (ps : List PortAnswer) (f : Frame) {s : State}
    (hp : s.phase = .idle) : receiveFrame f (s.replies as ps) = ((receiveFrame f s).replies as ps).goOn :=
  (goOn_idle (s := (receiveFrame f s).replies as ps) hp).symm

/-- An instruction run from an IDLE state with further answers there ends where it ends, or goes on, when they come
after it. -/
theorem exec_replies (as : List LinkAnswer) (ps : List PortAnswer) (i : Instr) {s : State} (hp : s.phase = .idle) :
    ∃ t, exec i s = .next t ∧ exec i (s.replies as ps) = .next (t.replies as ps).goOn := by
  cases i with
  | openLink top bottom =>
    cases ho : s.linkState with
    | closed =>
      refine ⟨_, exec_openLink_closed top bottom ho, ?_⟩
      rw [← openPort_replies]
      exact exec_openLink_closed top bottom ho
    | opened =>
      exact ⟨_, exec_openLink_opened top bottom ho, exec_openLink_opened (s := s.replies as ps) top bottom ho⟩
  | closeLink =>
    cases ho : s.linkState with
    | closed => exact ⟨_, exec_closeLink_closed ho, exec_closeLink_closed (s := s.replies as ps) ho⟩
    | opened => exact ⟨_, exec_closeLink_opened ho, exec_closeLink_opened (s := s.replies as ps) ho⟩
  | paintSingle addr P => exact ⟨_, rfl, congrArg _ (paint_replies ..)⟩
  | paintDual top bottom P => exact ⟨_, rfl, congrArg _ (paint_replies ..)⟩
  | paintDualDefault P => exact ⟨_, rfl, congrArg _ (paint_replies ..)⟩
  | sendRaw raw =>
    cases ho : s.linkState with
    | closed => exact ⟨_, exec_sendRaw_closed raw ho, exec_sendRaw_closed (s := s.replies as ps) raw ho⟩
    | opened =>
      refine ⟨_, exec_sendRaw_opened raw ho, ?_⟩
      rw [← runWrites_replies]
      exact exec_sendRaw_opened raw ho
  | frameRefresh addr data => exact ⟨_, rfl, congrArg _ (receiveFrame_replies as ps _ hp)⟩
  | frameDataRefresh addr data => exact ⟨_, rfl, congrArg _ (receiveFrame_replies as ps _ hp)⟩
  | frameDataNoRefresh addr data => exact ⟨_, rfl, congrArg _ (receiveFrame_replies as ps _ hp)⟩

/-- Settles O35: each operation of a command, given further answers, is the operation without them and then, where it
waits, its going on with them. -/
theorem lateAnswersChangeNothing : Obligations.LateAnswersChangeNothing := by
  intro i s t hp ht
  have late (as : List LinkAnswer) (ps : List PortAnswer) (u : State) (hu : exec i (s.replies as ps) = .next u) :
      u = (t.replies as ps).goOn := by
    obtain ⟨t', ht', hu'⟩ := exec_replies as ps i hp
    cases ht'.symm.trans ht
    exact Host.Outcome.next.inj (hu.symm.trans hu')
  constructor
  case left =>
    intro as u hu
    rw [← replies_linkOnly] at hu ⊢
    exact late as [] u hu
  case right =>
    intro ps u hu
    rw [← replies_platformOnly] at hu ⊢
    exact late [] ps u hu

end Sys2Proof.Machine
end

section
/-! SUPPORT. The decoder and the encoder undo each other (R65 to R70, R79): what each of the two does with the other's
answer, said once, and from it the opcode map, the operands of a command (R60) and the assembly lines (R75, R77). -/

namespace Sys2Proof

/-! ### Decoding what was encoded (R66, R68, R70) -/

/-- R70: a frame is encoded as its bytes. -/
@[simp] theorem encode_frameInstr (f : Frame) : encode f.instr = .frame f.bytes := by
  rcases f with ⟨m, a, d⟩
  cases m <;> rfl

/-- R70, R72: the bytes of a frame are read as that frame. -/
@[simp] theorem decode_frame_bytes (f : Frame) : decode (.frame f.bytes) = .ok f.instr := by
  simp [decode, Frame.bytes, decodeParts]

/-- R65, R66, R70: decoding undoes encoding. -/
theorem decode_encode (i : Instr) : decode (encode i) = .ok i := by
  cases i with
  | openLink top bottom => simp [encode, decode, decodeCommand]
  | closeLink => simp [encode, decode, decodeCommand, opOpen, opClose]
  | paintSingle addr P => simp [encode, decode, decodeCommand, opOpen, opClose, opPaintSingle]
  | paintDual top bottom P => simp [encode, decode, decodeCommand, opOpen, opClose, opPaintSingle, opPaintDual]
  | paintDualDefault P => simp [encode, decode, decodeCommand, opOpen, opClose, opPaintSingle, opPaintDual]
  | sendRaw raw => simp [encode, decode, decodeCommand, opOpen, opClose, opPaintSingle, opPaintDual, opSendRaw]
  | frameRefresh addr data => exact decode_frame_bytes { mode := .refresh, addr := addr, data := data }
  | frameDataRefresh addr data => exact decode_frame_bytes { mode := .dataRefresh, addr := addr, data := data }
  | frameDataNoRefresh addr data => exact decode_frame_bytes { mode := .dataNoRefresh, addr := addr, data := data }

/-- Settles O9, by the instruction: a command's word is read field by field, a frame's bytes part by part. -/
theorem decodeOfEncodeIsTheInstruction : Obligations.DecodeOfEncodeIsTheInstruction := decode_encode

/-! ### Encoding what was decoded (R79) -/

/-- R65: a word is packed from given fields exactly when they are its fields. -/
theorem packFields_eq_iff (w : CmdWord) (op d rsv b a) : packFields op d rsv b a = w ↔
    opField w = op ∧ dField w = d ∧ rsvField w = rsv ∧ bField w = b ∧ aField w = a := by
  conv_lhs => rw [← packFields_fields w, packFields_inj]
  simp only [eq_comm]

/-- R79: what a command record decodes to is encoded in a record with the same word. -/
theorem encode_of_decodeCommand {c : Command} {i : Instr} (h : decode (.command c) = .ok i) :
    ∃ c', encode i = .command c' ∧ c'.word = c.word := by
  simp only [decode, decodeCommand] at h
  split_ifs at h with hr ho hd hc hz hs hz hp hd hz hw hz <;> cases h <;>
    refine ⟨_, rfl, (packFields_eq_iff ..).mpr ?_⟩
  · exact ⟨ho, hd, not_not.mp hr, rfl, rfl⟩
  · exact ⟨hc, hz.1, not_not.mp hr, hz.2⟩
  · exact ⟨hs, hz.1, not_not.mp hr, hz.2, rfl⟩
  · exact ⟨hp, hd, not_not.mp hr, rfl, rfl⟩
  · exact ⟨hp, (BitVec.eq_zero_or_eq_one _).resolve_left hd, not_not.mp hr, hz⟩
  · exact ⟨hw, hz.1, not_not.mp hr, hz.2⟩

/-- Settles O10: a command's word by `encode_of_decodeCommand`, a frame's bytes by the inversion of `decodeFrame`. -/
theorem encodeOfDecodeIsTheWord : Obligations.EncodeOfDecodeIsTheWord := by
  refine ⟨fun c i => encode_of_decodeCommand, ?oneWord, ?frame⟩
  case oneWord =>
    intro c c' i h h'
    obtain ⟨e, he, hw⟩ := encode_of_decodeCommand h
    obtain ⟨e', he', hw'⟩ := encode_of_decodeCommand h'
    cases he.symm.trans he'
    exact hw.symm.trans hw'
  case frame =>
    intro b i h
    obtain ⟨f, rfl, rfl⟩ := decodeFrame_ok h
    exact encode_frameInstr f

/-! ### The operands of a command (R60) -/

/-- R60: an instruction with given operands in place of those it reads. -/
def Instr.withOperands (P : PixelOperand) (raw : List Byte) : Instr → Instr
  | .paintSingle addr _     => .paintSingle addr P
  | .paintDual top bottom _ => .paintDual top bottom P
  | .paintDualDefault _     => .paintDualDefault P
  | .sendRaw _              => .sendRaw raw
  | i                       => i

@[simp] theorem mnemonic_withOperands (P : PixelOperand) (raw : List Byte) (i : Instr) :
    (i.withOperands P raw).mnemonic = i.mnemonic := by
  cases i <;> rfl

/-- R60, R68: the operands of a command record decide only the operands of the instruction. -/
theorem decode_withOperands (w : CmdWord) (P P' : PixelOperand) (raw raw' : List Byte) :
    decode (.command { word := w, pix := P', raw := raw' }) =
      (decode (.command { word := w, pix := P, raw := raw })).map (Instr.withOperands P' raw') := by
  simp only [decode, decodeCommand]
  split_ifs <;> rfl

/-- R60: a decoded instruction has the record's operands. -/
theorem withOperands_of_decode {c : Command} {i : Instr} (h : decode (.command c) = .ok i) :
    i.withOperands c.pix c.raw = i := by
  have same := decode_withOperands c.word c.pix c.pix c.raw c.raw
  rw [h] at same
  exact (Except.ok.inj same).symm

theorem withOperands_of_linkCommand (P P' : PixelOperand) (raw raw' : List Byte) {i : Instr}
    (h : i.mnemonic = "OPEN" ∨ i.mnemonic = "CLOSE") : i.withOperands P raw = i.withOperands P' raw' := by
  cases i <;> simp_all [Instr.mnemonic, Instr.withOperands]

theorem withOperands_of_paint (P : PixelOperand) (raw raw' : List Byte) {i : Instr}
    (h : i.mnemonic = "PAINT_SINGLE" ∨ i.mnemonic = "PAINT_DUAL" ∨ i.mnemonic = "PAINT_DUAL_DEFAULT") :
    i.withOperands P raw = i.withOperands P raw' := by
  cases i <;> simp_all [Instr.mnemonic, Instr.withOperands]

theorem withOperands_of_sendRaw (P P' : PixelOperand) (raw : List Byte) {i : Instr} (h : i.mnemonic = "SEND_RAW") :
    i.withOperands P raw = i.withOperands P' raw := by
  cases i <;> simp_all [Instr.mnemonic, Instr.withOperands]

/-- Settles O8: with other operands the word decodes to the instruction with those in place of its own, and the operands
it does not read are not in it. -/
theorem unreadOperandsAreIgnored : Obligations.UnreadOperandsAreIgnored := by
  intro w P P' raw raw'
  refine ⟨fun i h => ?legal, fun e h => ?illegal⟩
  case legal =>
    have hi : i.withOperands P raw = i := withOperands_of_decode h
    have replaced (Q r) (hQ : i.withOperands Q r = i.withOperands P raw) :
        decode (.command { word := w, pix := Q, raw := r }) = .ok i := by
      rw [decode_withOperands w P Q raw r, h, Except.map, hQ, hi]
    exact ⟨fun hm => replaced P' raw' (withOperands_of_linkCommand P' P raw' raw hm),
      fun hm => replaced P raw' (withOperands_of_paint P raw' raw hm),
      fun hm => replaced P' raw (withOperands_of_sendRaw P' P raw hm)⟩
  case illegal => rw [decode_withOperands w P P' raw raw', h, Except.map]

/-- Settles O7: the word is the encoding's, whose address fields are the instruction's, and the operands are the
record's. -/
theorem addressesAreTheWordsLowBytes : Obligations.AddressesAreTheWordsLowBytes := by
  intro c i h
  have hi := withOperands_of_decode h
  obtain ⟨c', he, hw⟩ := encode_of_decodeCommand h
  refine ⟨?openLink, ?paintSingle, ?paintDual, ?paintDualDefault, ?sendRaw⟩
  case openLink =>
    rintro top bottom rfl
    cases he
    obtain ⟨-, -, -, hb, ha⟩ := (packFields_eq_iff ..).mp hw
    exact ⟨ha.symm, hb.symm⟩
  case paintSingle =>
    rintro addr P rfl
    cases he
    cases hi
    obtain ⟨-, -, -, -, ha⟩ := (packFields_eq_iff ..).mp hw
    exact ⟨ha.symm, rfl⟩
  case paintDual =>
    rintro top bottom P rfl
    cases he
    cases hi
    obtain ⟨-, -, -, hb, ha⟩ := (packFields_eq_iff ..).mp hw
    exact ⟨ha.symm, hb.symm, rfl⟩
  case paintDualDefault => rintro P rfl; cases hi; rfl
  case sendRaw => rintro raw rfl; cases hi; rfl

/-! ### The opcode map (R66) -/

/-- R66: a word meets a row that leaves the field A free when its other fields are the pattern's. -/
theorem mask_freeA (w : CmdWord) (op d rsv b) :
    w &&& 0xFFFFFF00 = packFields op d rsv b 0 ↔ packFields op d rsv b (aField w) = w := by
  rw [show (0xFFFFFF00 : CmdWord) = packFields (.allOnes 8) (.allOnes 1) (.allOnes 7) (.allOnes 8) 0 by decide,
    masked_eq_iff, packFields_eq_iff]
  simp only [BitVec.and_allOnes, BitVec.ofNat_eq_ofNat, BitVec.and_zero, and_true]

/-- R66: a word meets a row that leaves the fields A and B free when its other fields are the pattern's. -/
theorem mask_freeAB (w : CmdWord) (op d rsv) :
    w &&& 0xFFFF0000 = packFields op d rsv 0 0 ↔ packFields op d rsv (bField w) (aField w) = w := by
  rw [show (0xFFFF0000 : CmdWord) = packFields (.allOnes 8) (.allOnes 1) (.allOnes 7) 0 0 by decide,
    masked_eq_iff, packFields_eq_iff]
  simp only [BitVec.and_allOnes, BitVec.ofNat_eq_ofNat, BitVec.and_zero, and_true]

/-- R66: a word that meets a row with no free bit is the row's pattern. -/
theorem mask_all (w p : CmdWord) : w &&& 0xFFFFFFFF = p ↔ p = w := by
  rw [show (0xFFFFFFFF : CmdWord) = .allOnes 32 by decide, BitVec.and_allOnes, eq_comm]

/-- R66, R79: a word that meets a row is the word of an instruction with the row's mnemonic. -/
theorem encoded_of_matches {r : OpcodeRow} {w : CmdWord} (hr : r ∈ opcodeMap) (h : r.matches w = true) :
    ∃ i c, i.mnemonic = r.mnemonic ∧ encode i = .command c ∧ c.word = w := by
  rw [OpcodeRow.matches, beq_iff_eq] at h
  simp only [opcodeMap, List.mem_cons, List.not_mem_nil, or_false] at hr
  obtain rfl | rfl | rfl | rfl | rfl | rfl := hr
  · exact ⟨.openLink (aField w) (bField w), _, rfl, rfl, (mask_freeAB w opOpen 0 0).mp h⟩
  · exact ⟨.closeLink, _, rfl, rfl, (mask_all ..).mp h⟩
  · exact ⟨.paintSingle (aField w) .absent, _, rfl, rfl, (mask_freeA w opPaintSingle 0 0 0).mp h⟩
  · exact ⟨.paintDual (aField w) (bField w) .absent, _, rfl, rfl, (mask_freeAB w opPaintDual 0 0).mp h⟩
  · exact ⟨.paintDualDefault .absent, _, rfl, rfl, (mask_all ..).mp h⟩
  · exact ⟨.sendRaw [], _, rfl, rfl, (mask_all ..).mp h⟩

/-- The family TableRow for every instruction: its encoding meets its own row (R66). -/
theorem meetsRow (i : Instr) : Laws.TableRow.Statement i := by
  cases i with
  | openLink top bottom => exact Laws.TableRow.openLink top bottom
  | closeLink => exact Laws.TableRow.closeLink
  | paintSingle addr P => exact Laws.TableRow.paintSingle addr P
  | paintDual top bottom P => exact Laws.TableRow.paintDual top bottom P
  | paintDualDefault P => exact Laws.TableRow.paintDualDefault P
  | sendRaw raw => exact Laws.TableRow.sendRaw raw
  | frameRefresh addr data => exact Laws.TableRow.frameRefresh addr data
  | frameDataRefresh addr data => exact Laws.TableRow.frameDataRefresh addr data
  | frameDataNoRefresh addr data => exact Laws.TableRow.frameDataNoRefresh addr data

theorem row_of_encode {i : Instr} {c : Command} (h : encode i = .command c) :
    ∃ r ∈ opcodeMap, r.mnemonic = i.mnemonic ∧ r.matches c.word = true := by
  have hi := meetsRow i
  rw [Laws.TableRow.Statement, h] at hi
  exact hi

/-- No word meets two rows whose patterns differ in a bit that both masks read. -/
theorem not_matches_both {r r' : OpcodeRow} (h : r.pattern &&& r'.mask ≠ r'.pattern &&& r.mask) (w : CmdWord) :
    ¬ (r.matches w = true ∧ r'.matches w = true) := by
  simp only [OpcodeRow.matches, beq_iff_eq]
  rintro ⟨hw, hw'⟩
  exact h (by rw [← hw, ← hw', BitVec.and_assoc, BitVec.and_comm r.mask, ← BitVec.and_assoc])

/-- Settles O6: any two rows differ in a bit both masks read; a decoded word is the word of its instruction's encoding,
which meets that instruction's row, and a word that meets a row is the word of an encoding. -/
theorem decodeFollowsTheOpcodeMap : Obligations.DecodeFollowsTheOpcodeMap := by
  refine ⟨?disjoint, fun c m => ⟨?row, ?word⟩⟩
  case disjoint =>
    have differ : opcodeMap.Pairwise fun r r' => r.pattern &&& r'.mask ≠ r'.pattern &&& r.mask := by decide
    exact differ.imp not_matches_both
  case row =>
    rintro ⟨i, h, rfl⟩
    obtain ⟨c', he, hw⟩ := encode_of_decodeCommand h
    exact hw ▸ row_of_encode he
  case word =>
    rintro ⟨r, hr, rfl, hw⟩
    obtain ⟨i, c', hm, he, hw'⟩ := encoded_of_matches hr hw
    have hd := decode_encode i
    rw [he] at hd
    have hc := decode_withOperands c'.word c'.pix c.pix c'.raw c.raw
    rw [hd, hw'] at hc
    exact ⟨i.withOperands c.pix c.raw, hc, (mnemonic_withOperands ..).trans hm⟩

/-! ### Assembly lines (R75, R77) and examples (R78) -/

/-- R75: the word of a line is the opcode's fixed bits with the line's bytes in the fields B and A. -/
theorem wordOver_packFields (op bottom top : Byte) :
    Machine.wordOver (packFields op 0 0 0 0) bottom top = packFields op 0 0 bottom top := by
  ext i hi
  rw [← BitVec.getLsbD_eq_getElem, ← BitVec.getLsbD_eq_getElem]
  simp only [Machine.wordOver, BitVec.getLsbD_or, BitVec.getLsbD_shiftLeft, BitVec.truncate_eq_setWidth,
    BitVec.getLsbD_setWidth, getLsbD_packFields]
  split_ifs with hA hB
  · simp [hi, hA]
  · simp [hi, hA, BitVec.getLsbD_of_ge top i (by omega), show i - 8 < 32 by omega]
  all_goals simp [BitVec.getLsbD_of_ge top i (by omega), BitVec.getLsbD_of_ge bottom (i - 8) (by omega)]

/-- A record that an instruction is encoded in decodes to the instruction. -/
theorem decode_of_encode {i : Instr} {c : Command} (h : encode i = .command c) : decode (.command c) = .ok i :=
  h ▸ decode_encode i

theorem encode_openLine (top bottom : Byte) :
    encode (.openLink top bottom) = .command (Machine.AsmLine.openLine top bottom).command := by
  rw [encode, ← wordOver_packFields]
  rfl

theorem encode_paintSingleLine (addr : Byte) (P : PixelOperand) :
    encode (.paintSingle addr P) = .command (Machine.AsmLine.paintSingleLine addr P).command := by
  rw [encode, ← wordOver_packFields]
  rfl

theorem encode_paintDualLine (top bottom : Byte) (P : PixelOperand) :
    encode (.paintDual top bottom P) = .command (Machine.AsmLine.paintDualLine top bottom P).command := by
  rw [encode, ← wordOver_packFields]
  rfl

/-- Settles O12: each line presents the record its command is encoded in, and the rest is how the lines are written. -/
theorem assemblyLinesAreTheirCommands : Obligations.AssemblyLinesAreTheirCommands :=
  ⟨fun top bottom => decode_of_encode (encode_openLine top bottom), decode_of_encode rfl,
    fun addr P => decode_of_encode (encode_paintSingleLine addr P),
    fun top bottom P => decode_of_encode (encode_paintDualLine top bottom P), fun _ => decode_of_encode rfl,
    fun _ => decode_of_encode rfl, fun _ => rfl, fun _ _ => rfl, fun _ _ _ => rfl⟩

/-- Settles O11: each word and each frame is written out, and the decoder is run on it. -/
theorem exampleWordsDecode : Obligations.ExampleWordsDecode := by
  unfold Obligations.ExampleWordsDecode
  decide

end Sys2Proof
end

section
/-! SUPPORT. The ports of the machine (R21, R56, R61, R147): a step takes at most one command from the HOST, runs what
the decoder reads, and delivers to the panels as stray bytes what is no frame. -/

namespace Sys2Proof.Machine

/-! ### The command port (R61) -/

/-- R61: an instruction takes no command from the HOST. -/
theorem exec_commands {i : Instr} {s t : State} (h : exec i s = .next t) : t.commands = s.commands := by
  apply exec_induct (h := h)
  case ended => exact fun c _ => rfl
  case closed => exact fun _ _ => rfl
  case opening => exact fun top bottom _ _ => (openPort_keepsAddresses _).commands
  case writing => exact fun bs _ _ => (runWrites_sameOutside .keepLink bs s).commands
  case received => exact fun f _ => rfl

/-- Settles O17: of what a step can do, only accepting a command at an IDLE block takes one, and it is the first. -/
theorem portTakesOneCommandOnlyWhenIdle : Obligations.PortTakesOneCommandOnlyWhenIdle := by
  intro s t h
  apply step_induct_block (h := h)
  case panels => exact fun xs ps => .inl rfl
  case goesOn => exact fun p _ => .inl (resume_keepsAddresses p s).commands
  case illegal => exact fun c cs hp hcs => .inr ⟨hp, c, hcs⟩
  case command => exact fun c cs i u hp hcs _ hu => .inr ⟨hp, c, by rw [hcs, exec_commands hu]⟩

/-! ### What the next step reads (R21, R61, R68) -/

theorem tableEncoded_frame {nbits : Nat} (h : nbits ≤ 8) (w : Nat) : tableEncoded nbits w =
    .frame (frameBytes (BitVec.ofNat 8 w) 0 (tableData (BitVec.ofNat 8 w))) := if_pos h

theorem tableEncoded_command {nbits : Nat} (h : 8 < nbits) (w : Nat) : tableEncoded nbits w =
    .command { word := BitVec.ofNat 32 w, pix := .absent, raw := [] } := if_neg (by omega)

/-- A command record put at the port is what the next step runs. -/
theorem step_putAtPort_command {c : Command} {i : Instr} (h : decode (.command c) = .ok i) (s : State) :
    step (putAtPort (.command c) s) = exec i { s with transit := [], phase := .idle } :=
  step_command rfl rfl rfl h

/-- The bytes of a frame put on the link are what the next step runs. -/
theorem step_putAtPort_frame {b : List Byte} {i : Instr} (h : decode (.frame b) = .ok i) (s : State) :
    step (putAtPort (.frame b) s) = exec i s :=
  step_frame rfl h

/-- Settles O13: the step by what waits at the ports, for a state in which it waits there and for one in which
`withFetchWord` put it there. -/
theorem stepRunsTheDecodedInstruction : Obligations.StepRunsTheDecodedInstruction := by
  refine ⟨fun s c cs i => step_command, fun s b xs i => step_frame, ?command, ?frame, fun s p => step_busy⟩
  case command =>
    intro s nbits w i hn h
    have hd := decode_of_decodeTableWord h
    rw [State.withFetchWord]
    rw [tableEncoded_command hn] at hd ⊢
    exact step_putAtPort_command hd s
  case frame =>
    intro s nbits w i hn h
    have hd := decode_of_decodeTableWord h
    rw [State.withFetchWord]
    rw [tableEncoded_frame hn] at hd ⊢
    exact step_putAtPort_frame hd s

/-! ### Bytes that are no frame (R70, R72, R147, R200) -/

/-- R70, R72: the bytes that decode are the bytes of the frames. -/
theorem decode_frame_ok_iff (b : List Byte) : (∃ i, decode (.frame b) = .ok i) ↔ ∃ f : Frame, b = f.bytes := by
  constructor
  case mp =>
    rintro ⟨i, h⟩
    obtain ⟨f, -, hb⟩ := decodeFrame_ok h
    exact ⟨f, hb⟩
  case mpr =>
    rintro ⟨f, rfl⟩
    exact ⟨f.instr, decode_frame_bytes f⟩

/-- Settles O47: the bytes that decode are those of the frames; the step for any others, and for a cut write, is their
reception as stray bytes. -/
theorem bytesThatAreNoFrameAreStray : Obligations.BytesThatAreNoFrameAreStray := by
  refine ⟨fun b => (decode_frame_ok_iff b).trans ⟨?parts, ?whole⟩, ?stray⟩
  case parts => exact fun ⟨f, hb⟩ => ⟨f.mode, f.addr, f.data, hb⟩
  case whole => exact fun ⟨mode, addr, data, hb⟩ => ⟨{ mode := mode, addr := addr, data := data }, hb⟩
  case stray =>
    rintro b x xs s (⟨rfl, e, he⟩ | rfl) hx
    · exact step_noFrame hx he
    · exact step_cut hx

end Sys2Proof.Machine
end

section
/-! SUPPORT. The datapath (R80 to R89): the bits of a packed column, the inverse of packing, the bytes of the frames,
the answers of VALIDATE, and where a display cell stands in the frames of a dual paint. -/

namespace Sys2Proof.Machine

/-! ### PACK_COLUMN (R80) -/

section PackColumn

variable {p : List Nat} (hp : ∀ v ∈ p, v = 0 ∨ v = 1)
include hp

/-- A binary column reads 0 or 1 at every row, past its end too. -/
theorem getD_binary (r : Nat) : p.getD r 0 = 0 ∨ p.getD r 0 = 1 := by
  by_cases hr : r < p.length
  · rw [List.getD_eq_getElem p 0 hr]
    exact hp _ (List.getElem_mem hr)
  · exact .inl (List.getD_eq_default p 0 (not_lt.mp hr))

/-- A cell of a binary column is the value of its truth. -/
theorem toNat_getD_beq_one (r : Nat) : (p.getD r 0 == 1).toNat = p.getD r 0 := by
  rcases getD_binary hp r with h | h <;> rw [h] <;> rfl

/-- R80: the number whose bit `r` is the cell at row `r` is the sum Σ p[r]·2^r. -/
theorem ofBits_cells : (Nat.ofBits fun r : Fin 7 => p.getD r 0 == 1) = p.getD 0 0 * 1 + p.getD 1 0 * 2 +
    p.getD 2 0 * 4 + p.getD 3 0 * 8 + p.getD 4 0 * 16 + p.getD 5 0 * 32 + p.getD 6 0 * 64 := by
  simp only [Nat.ofBits_succ, Nat.ofBits_zero, Function.comp_apply, Fin.val_succ, Fin.val_zero, zero_add,
    Nat.reduceAdd, toNat_getD_beq_one hp]
  omega

/-- R80: PACK_COLUMN of a binary column is the number whose bit `r` is the cell at row `r`. -/
theorem toNat_packColumn : (packColumn p).toNat = Nat.ofBits fun r : Fin 7 => p.getD r 0 == 1 := by
  have hsum : ((List.range 7).map fun r => p.getD r 0 * 2 ^ r).sum = Nat.ofBits fun r : Fin 7 => p.getD r 0 == 1 := by
    rw [ofBits_cells hp]
    simp [List.range_succ, add_assoc]
  rw [packColumn, hsum, BitVec.toNat_ofNat]
  exact Nat.mod_eq_of_lt ((Nat.ofBits_lt_two_pow _).trans (by decide))

theorem toNat_packColumn_le : (packColumn p).toNat ≤ 0x7F := by
  rw [toNat_packColumn hp]
  exact Nat.le_of_lt_succ (Nat.ofBits_lt_two_pow _)

theorem getLsbD_packColumn {r : Nat} (hr : r < 7) : (packColumn p).getLsbD r = (p.getD r 0 == 1) := by
  rw [BitVec.getLsbD, toNat_packColumn hp, Nat.testBit_ofBits_lt _ _ hr]

/-- R81: a packed column is no byte above 0x7F, such as the header, a mode byte or the terminator (R70, R72). -/
theorem packColumn_ne {b : Byte} (hb : 0x7F < b.toNat) : packColumn p ≠ b :=
  fun h => absurd (toNat_packColumn_le hp) (not_le.mpr (h ▸ hb))

end PackColumn

/-- Settles O1: the sum is the number that has the cells as its bits. -/
theorem packColumnPutsEachRowInItsBit : Obligations.PackColumnPutsEachRowInItsBit :=
  fun _ _ hp => ⟨(toNat_packColumn hp).trans (ofBits_cells hp), fun _ => getLsbD_packColumn hp,
    (bit7_eq_false_iff _).mpr (toNat_packColumn_le hp)⟩

/-! ### UNPACK_COLUMN (R81) -/

@[simp] theorem length_unpackColumn (v : Byte) : (unpackColumn v).length = 7 := by simp [unpackColumn]

theorem unpackColumn_getD (v : Byte) {k : Nat} (hk : k < 7) : (unpackColumn v).getD k 0 = (v.getLsbD k).toNat := by
  simp [unpackColumn, List.getD, hk]

theorem unpackColumn_binary (v : Byte) : ∀ x ∈ unpackColumn v, x = 0 ∨ x = 1 := by
  intro x hx
  obtain ⟨k, -, rfl⟩ := List.mem_map.mp hx
  cases v.getLsbD k <;> decide

/-- R81: a binary column of 7 cells is read back from its byte. -/
theorem unpackColumn_packColumn {p : List Nat} (hlen : p.length = 7) (hp : ∀ v ∈ p, v = 0 ∨ v = 1) :
    unpackColumn (packColumn p) = p := by
  refine List.ext_getElem (by rw [length_unpackColumn, hlen]) fun k hk hk' => ?_
  have h7 : k < 7 := hlen ▸ hk'
  rw [← List.getD_eq_getElem _ 0 hk, ← List.getD_eq_getElem _ 0 hk', unpackColumn_getD _ h7,
    getLsbD_packColumn hp h7, toNat_getD_beq_one hp]

/-- R81: a byte of at most 0x7F is its bits 0 to 6, packed again. -/
theorem packColumn_unpackColumn {v : Byte} (hv : v.toNat ≤ 0x7F) : packColumn (unpackColumn v) = v := by
  refine BitVec.eq_of_getLsbD_eq fun k hk => ?_
  by_cases h7 : k < 7
  · rw [getLsbD_packColumn (unpackColumn_binary v) h7, unpackColumn_getD v h7]
    cases v.getLsbD k <;> rfl
  · obtain rfl : k = 7 := by omega
    rw [(bit7_eq_false_iff v).mpr hv, (bit7_eq_false_iff _).mpr (toNat_packColumn_le (unpackColumn_binary v))]

/-- Settles O2: the two functions undo each other, bit by bit, and the excluded bytes lie above 0x7F. -/
theorem columnPackingIsABijection : Obligations.ColumnPackingIsABijection :=
  ⟨fun _ hlen hp => ⟨toNat_packColumn_le hp, unpackColumn_packColumn hlen hp, packColumn_ne hp (by decide),
      packColumn_ne hp (by decide), packColumn_ne hp (by decide), packColumn_ne hp (by decide),
      packColumn_ne hp (by decide)⟩,
    fun v hv => ⟨packColumn_unpackColumn hv, length_unpackColumn v, unpackColumn_binary v,
      fun _ => unpackColumn_getD v⟩⟩

/-! ### Frames (R82, R85, R86) -/

/-- R74, R82: of a binary panel no data byte exceeds 0x7F. -/
theorem encodePanel_le {P : PixelOperand} (h : IsBuffer P 7 28) : ∀ d ∈ encodePanel P, d.toNat ≤ 0x7F := by
  intro d hd
  obtain ⟨c, hc, rfl⟩ := List.mem_map.mp hd
  exact toNat_packColumn_le (panelColumn_binary h (List.mem_range.mp hc))

/-- Settles O3: byte `c` of a panel is the packed column `c`, and the frames are how they are written. -/
theorem framesAreBuiltAsLaidOut : Obligations.FramesAreBuiltAsLaidOut := by
  refine ⟨fun P => ⟨length_encodePanel P, fun c hc => ?column⟩, fun _ _ _ => ⟨rfl, length_frameBytes _ _ _⟩,
    fun addr P => ⟨rfl, length_paintFrame addr P⟩, fun _ => encodePanel_le⟩
  case column => rw [encodePanel_getD P hc, panelColumn_eq]

/-! ### VALIDATE (R83) -/

theorem allBinary_iff (P : PixelOperand) (R C : Nat) :
    allBinary P R C = true ↔ ∀ r < R, ∀ c < C, P.cell r c = 0 ∨ P.cell r c = 1 := by
  simp [allBinary, isBinary]

/-- R100: a buffer is an operand that passes both of VALIDATE's checks. -/
theorem isBuffer_iff (P : PixelOperand) (R C : Nat) :
    IsBuffer P R C ↔ ¬ (P.rows ≠ R ∨ P.cols ≠ C) ∧ allBinary P R C = true := by
  rw [allBinary_iff, IsBuffer, not_or, not_ne_iff, not_ne_iff, and_assoc]

/-- R162: an operand has a bad cell when it passes the check of the shape alone. -/
theorem hasBadCell_iff (P : PixelOperand) (R C : Nat) :
    HasBadCell P R C ↔ ¬ (P.rows ≠ R ∨ P.cols ≠ C) ∧ ¬ allBinary P R C = true := by
  rw [allBinary_iff, HasBadCell, not_or, not_ne_iff, not_ne_iff, and_assoc]
  simp only [not_forall, not_or, exists_prop]

/-- Settles O4: each of VALIDATE's three branches answers a code of its own. -/
theorem validateChecksShapeThenDomain : Obligations.ValidateChecksShapeThenDomain := by
  intro P R C
  rw [isBuffer_iff, hasBadCell_iff, validate]
  split_ifs with hs hb
  · simp [hs]
  · simp [hs, hb]
  · simp [hs, hb]

/-! ### The dual split (R84, R89) -/

theorem cell_topHalf (P : PixelOperand) {k c : Nat} (hk : k < 7) (hc : c < 28) : (topHalf P).cell k c = P.cell k c :=
  cell_ofFn 7 28 _ hk hc

theorem cell_bottomHalf (P : PixelOperand) {k c : Nat} (hk : k < 7) (hc : c < 28) :
    (bottomHalf P).cell k c = P.cell (k + 7) c :=
  cell_ofFn 7 28 _ hk hc

theorem panelColumn_getD (P : PixelOperand) (c : Nat) {k : Nat} (hk : k < 7) :
    (panelColumn P c).getD k 0 = P.cell k c := by
  simp [panelColumn, List.getD, hk]

/-- R70, R86: data byte `c` of a paint frame stands after header, mode and address. -/
theorem paintFrame_getD (addr : Byte) (P : PixelOperand) {c : Nat} (hc : c < 28) :
    (paintFrame addr P).getD (3 + c) 0 = packColumn (panelColumn P c) := by
  rw [← encodePanel_getD P hc, Nat.add_comm]
  exact List.getD_append (encodePanel P) [frameTerminator] 0 c (by rwa [length_encodePanel])

/-- R89: bit `k` of data byte `c` of a panel's paint frame is its cell `(k, c)`. -/
theorem getLsbD_paintFrame (addr : Byte) {P : PixelOperand} (h : IsBuffer P 7 28) {k c : Nat} (hk : k < 7)
    (hc : c < 28) : ((paintFrame addr P).getD (3 + c) 0).getLsbD k = (P.cell k c == 1) := by
  rw [paintFrame_getD addr P hc, getLsbD_packColumn (panelColumn_binary h hc) hk, panelColumn_getD P c hk]

/-- Settles O5: the halves are panel buffers with the display's cells, and each is painted as a panel of its own. -/
theorem dualFramesCarryTheDisplayRows : Obligations.DualFramesCarryTheDisplayRows := by
  refine fun P => ⟨⟨rfl, rfl, rfl, rfl⟩, fun k hk c hc => ⟨cell_topHalf P hk hc, cell_bottomHalf P hk hc⟩,
    fun h top bottom => ⟨_, _, rfl, fun k hk c hc => ⟨?top, ?bottom⟩⟩⟩
  case top => exact (getLsbD_paintFrame top (isBuffer_topHalf h) hk hc).trans (by rw [cell_topHalf P hk hc])
  case bottom => exact (getLsbD_paintFrame bottom (isBuffer_bottomHalf h) hk hc).trans (by rw [cell_bottomHalf P hk hc])

end Sys2Proof.Machine
end

section
/-! SUPPORT. The paint commands (R100 to R108): the checks of a paint by their outcome, and the writes of 32-byte frames by
LINK's answers, each with the state it leaves; every case of a paint command is one of these. -/

namespace Sys2Proof.Machine

/-! ### The words of a command with any operands (R60, R66) -/

/-- R60, R66: the word of an instruction's encoding decodes, with any operands, to the instruction with those operands. -/
theorem decode_encodedWord {i : Instr} {c : Command} {w : CmdWord} (h : encode i = .command c) (hw : c.word = w)
    (P : PixelOperand) (raw : List Byte) :
    decode (.command { word := w, pix := P, raw := raw }) = .ok (i.withOperands P raw) := by
  subst hw
  rw [decode_withOperands c.word c.pix P c.raw raw, decode_of_encode h, Except.map]

/-! ### The checks of a paint (R83, R101, R163) -/

theorem exec_paintSingle (addr : Byte) (P : PixelOperand) (s : State) :
    exec (.paintSingle addr P) s = .next (paint P 7 28 [paintFrame addr P] s) := rfl

theorem exec_paintDual (top bottom : Byte) (P : PixelOperand) (s : State) :
    exec (.paintDual top bottom P) s = .next (paint P 14 28 (dualFrames top bottom P) s) := rfl

theorem exec_paintDualDefault (P : PixelOperand) (s : State) :
    exec (.paintDualDefault P) s = .next (paint P 14 28 (dualFrames s.topAddr s.bottomAddr P) s) := rfl

section Checks
variable {P : PixelOperand} {R C : Nat} (fs : List (List Byte)) {s : State} (hl : s.linkState = .opened)
include hl

theorem paint_wrongShape (h : P.rows ≠ R ∨ P.cols ≠ C) : paint P R C fs s = endCommand .shape s := by
  have hv : validate P R C = .shape := by rw [validate, if_pos h]
  rw [paint_invalid P R C fs s hl (by simp [hv]), hv]

theorem paint_badCell (h : HasBadCell P R C) : paint P R C fs s = endCommand .valueDomain s := by
  obtain ⟨hshape, hcells⟩ := (hasBadCell_iff P R C).mp h
  have hv : validate P R C = .valueDomain := by rw [validate, if_neg hshape, if_neg hcells]
  rw [paint_invalid P R C fs s hl (by simp [hv]), hv]

theorem paint_buffer (h : IsBuffer P R C) : paint P R C fs s = runWrites .keepLink fs s := by
  obtain ⟨hshape, hcells⟩ := (isBuffer_iff P R C).mp h
  exact paint_valid P R C fs s hl (by rw [validate, if_neg hshape, if_pos hcells])

/-- R101: an operand that is no buffer of its shape fails one of VALIDATE's two checks, before any write. -/
theorem paint_notBuffer (h : ¬ IsBuffer P R C) :
    (paint P R C fs s).wire = s.wire ∧ (paint P R C fs s).writeLog = s.writeLog ∧
    ((paint P R C fs s).status = .shape ∨ (paint P R C fs s).status = .valueDomain) := by
  by_cases hshape : P.rows ≠ R ∨ P.cols ≠ C
  · rw [paint_wrongShape fs hl hshape]
    exact ⟨rfl, rfl, .inl rfl⟩
  · have hcells : ¬ allBinary P R C = true := fun hb => h ((isBuffer_iff P R C).mpr ⟨hshape, hb⟩)
    rw [paint_badCell fs hl ((hasBadCell_iff P R C).mpr ⟨hshape, hcells⟩)]
    exact ⟨rfl, rfl, .inr rfl⟩

end Checks

/-- Settles O27: each of the three commands is a `paint` of its shape, which makes no write with such an operand. -/
theorem failedValidationWritesNothing : Obligations.FailedValidationWritesNothing := by
  intro s P addr top bottom hl
  exact ⟨fun h => ⟨_, exec_paintSingle addr P s, paint_notBuffer _ hl h⟩,
    fun h => ⟨_, exec_paintDual top bottom P s, paint_notBuffer _ hl h⟩,
    fun h => ⟨_, exec_paintDualDefault P s, paint_notBuffer _ hl h⟩⟩

/-! ### The writes of whole frames (R44, R45, R106) -/

section FrameWrites
variable {f g : List Byte} (hf : f.length = 32) (hg : g.length = 32)
  (m : OnFail) (bs : List (List Byte)) {s : State} {k : Nat} {as : List LinkAnswer}

include hf in
/-- R44: a frame answered `Done` is on WIRE and on the link whole, and the next write follows. -/
theorem runWrites_frame_done (h : s.linkAnswers = .done :: as) :
    runWrites m (f :: bs) s = runWrites m bs { s with
      linkAnswers := as, wire := s.wire ++ f
      writeLog := s.writeLog ++ [{ requested := f, emitted := 32, ok := true }]
      transit := s.transit ++ [.whole f] } := by
  have hne : f ≠ [] := List.ne_nil_of_length_pos (by omega)
  have hsent (q) : sendToPanels f .done q = q ++ [.whole f] := sendToPanels_some (a := .done) hne q
  rw [runWrites_done m f bs s as h]
  simp [txWrite, writeRecord, hf, hsent]

include hf in
/-- R44, R106: a frame answered `Fail(k)` leaves its first `k` bytes, and no later write is attempted. -/
theorem runWrites_frame_fail (h : s.linkAnswers = .fail k :: as) :
    runWrites m (f :: bs) s = endCommand .io (m.release { s with
      linkAnswers := as, wire := s.wire ++ f.take k
      writeLog := s.writeLog ++ [{ requested := f, emitted := min k 32, ok := false }]
      transit := if k = 0 then s.transit else s.transit ++ [.cut (f.take k)] }) := by
  have hne : f ≠ [] := List.ne_nil_of_length_pos (by omega)
  have hnil : f.take k = [] ↔ k = 0 := by rw [List.take_eq_nil_iff, or_iff_left hne]
  rw [runWrites_fail m f bs s k as h]
  simp [txWrite, writeRecord, hf, sendToPanels, hnil]

include hf hg

/-- R105: the first frame is sent whole, and the second fails. -/
theorem runWrites_frames_done_fail (h : s.linkAnswers = .done :: .fail k :: as) :
    runWrites m [f, g] s = endCommand .io (m.release { s with
      linkAnswers := as, wire := s.wire ++ f ++ g.take k
      writeLog := s.writeLog ++ [{ requested := f, emitted := 32, ok := true },
        { requested := g, emitted := min k 32, ok := false }]
      transit := if k = 0 then s.transit ++ [.whole f] else s.transit ++ [.whole f, .cut (g.take k)] }) := by
  rw [runWrites_frame_done hf m [g] h, runWrites_frame_fail hg m [] rfl]
  simp only [List.append_assoc, List.cons_append, List.nil_append]

/-- R107: both frames are sent whole, in their order. -/
theorem runWrites_frames_done_done (h : s.linkAnswers = .done :: .done :: as) :
    runWrites m [f, g] s = endCommand .ok { s with
      linkAnswers := as, wire := s.wire ++ f ++ g
      writeLog := s.writeLog ++ [{ requested := f, emitted := 32, ok := true },
        { requested := g, emitted := 32, ok := true }]
      transit := s.transit ++ [.whole f, .whole g] } := by
  rw [runWrites_frame_done hf m [g] h, runWrites_frame_done hg m [] rfl, runWrites_nil]
  simp only [List.append_assoc, List.cons_append, List.nil_append]

end FrameWrites

/-! ### The commands -/

/-- Settles O28: the word is the encoding's; then one case for each outcome of the checks, and for a buffer one for each
answer to its one write. -/
theorem paintSingleInEveryCase : Obligations.PaintSingleInEveryCase := by
  intro addr P s
  rw [exec_paintSingle]
  refine ⟨?word, ?notOpen, ?shape, ?valueDomain, ?buffer⟩
  case word =>
    intro w raw hw
    exact decode_encodedWord (i := .paintSingle (aField w) P) rfl ((mask_freeA w opPaintSingle 0 0 0).mp hw) P raw
  case notOpen => intro hl; rw [paint_closed P 7 28 _ s hl]; rfl
  case shape => intro hl hs; rw [paint_wrongShape _ hl hs]; rfl
  case valueDomain => intro hl hc; rw [paint_badCell _ hl hc]; rfl
  case buffer =>
    intro hl hP f hf
    obtain rfl : f = paintFrame addr P := hf
    have hlen := length_paintFrame addr P
    rw [paint_buffer _ hl hP]
    refine ⟨hlen, fun h => ?unanswered, fun as h => ?done, fun k as h => ?fail⟩
    case unanswered => rw [runWrites_unanswered _ _ _ s h]; rfl
    case done => rw [runWrites_frame_done hlen _ _ h]; rfl
    case fail => rw [runWrites_frame_fail hlen _ _ h]; rfl

/-- Settles O29: as for PAINT_SINGLE, and for a buffer one case for each list of answers to its two writes. -/
theorem paintDualInEveryCase : Obligations.PaintDualInEveryCase := by
  intro top bottom P s
  rw [exec_paintDual]
  refine ⟨?word, ?notOpen, ?shape, ?valueDomain, ?buffer⟩
  case word =>
    intro w raw hw
    exact decode_encodedWord (i := .paintDual (aField w) (bField w) P) rfl
      ((mask_freeAB w opPaintDual 0 0).mp hw) P raw
  case notOpen => intro hl; rw [paint_closed P 14 28 _ s hl]; rfl
  case shape => intro hl hs; rw [paint_wrongShape _ hl hs]; rfl
  case valueDomain => intro hl hc; rw [paint_badCell _ hl hc]; rfl
  case buffer =>
    intro hl hP f g hf hg
    obtain rfl : f = paintFrame top (splitDual P).1 := hf
    obtain rfl : g = paintFrame bottom (splitDual P).2 := hg
    have htop := length_paintFrame top (splitDual P).1
    have hbottom := length_paintFrame bottom (splitDual P).2
    rw [paint_buffer _ hl hP, dualFrames]
    refine ⟨htop, hbottom, fun h => ?unanswered, fun k as h => ?firstFails, fun h => ?secondUnanswered,
      fun k as h => ?secondFails, fun as h => ?bothDone⟩
    case unanswered => rw [runWrites_unanswered _ _ _ s h]; rfl
    case firstFails => rw [runWrites_frame_fail htop _ _ h]; rfl
    case secondUnanswered => rw [runWrites_frame_done htop _ _ h, runWrites_unanswered _ _ _ _ rfl]; rfl
    case secondFails => rw [runWrites_frames_done_fail htop hbottom _ h]; rfl
    case bothDone => rw [runWrites_frames_done_done htop hbottom _ h]; rfl

/-- Settles O30: the two commands are the same `paint` by definition, so the success is the one PAINT_DUAL has to TOP_ADDR
and BOTTOM_ADDR. -/
theorem paintDualDefaultUsesTheConstructionAddresses :
    Obligations.PaintDualDefaultUsesTheConstructionAddresses := by
  intro P s
  refine ⟨fun raw => decode_encodedWord (i := .paintDualDefault P) rfl rfl P raw, rfl, ?bothDone⟩
  case bothDone =>
    intro hl hP as h f g hf hg
    obtain ⟨-, -, -, -, valid⟩ := paintDualInEveryCase s.topAddr s.bottomAddr P s
    obtain ⟨-, -, -, -, -, -, bothDone⟩ := valid hl hP f g hf hg
    exact bothDone as h

end Sys2Proof.Machine
end

section
/-! SUPPORT. The link and raw commands (R120 to R130): a word that meets no row, CLOSE, SEND_RAW by the answer to its
one write, and OPEN by PLATFORM's answer and LINK's answers to its two blank frames. -/

namespace Sys2Proof.Machine

/-! ### Illegal words (R69, R130) -/

/-- R68, R69: a word that meets no row of the opcode map is ILLEGAL. -/
theorem decode_illegal {c : Command} (h : ∀ r ∈ opcodeMap, r.matches c.word = false) :
    ∃ e, decode (.command c) = .error e := by
  cases hd : decode (.command c) with
  | error e => exact ⟨e, rfl⟩
  | ok i =>
    obtain ⟨-, rowOfDecoded⟩ := decodeFollowsTheOpcodeMap
    obtain ⟨r, hr, -, hw⟩ := (rowOfDecoded c i.mnemonic).mp ⟨i, hd, rfl⟩
    exact absurd (h r hr) (by simp [hw])

/-- Settles O14: the word does not decode, and the step at the command port reports that before anything is checked. -/
theorem illegalWordOnlyReports : Obligations.IllegalWordOnlyReports := by
  intro s c cs hx hp hc hw
  obtain ⟨e, he⟩ := decode_illegal hw
  exact step_illegal hx hp hc he

/-! ### CLOSE (R124, D9) -/

/-- R124, D9: whatever CLOSE answers, the link is closed after it. -/
theorem linkState_of_closeLink {s t : State} (h : exec .closeLink s = .next t) : t.linkState = .closed := by
  cases hl : s.linkState with
  | closed => cases (exec_closeLink_closed hl).symm.trans h; exact hl
  | opened => cases (exec_closeLink_opened hl).symm.trans h; rfl

/-- R22, R163: on a closed link a paint and SEND_RAW end with NOT_OPEN, whatever their operands. -/
theorem exec_notOpen {s : State} (h : s.linkState = .closed) (addr top bottom : Byte) (P : PixelOperand)
    (raw : List Byte) :
    ∀ i ∈ [Instr.paintSingle addr P, .paintDual top bottom P, .paintDualDefault P, .sendRaw raw],
      exec i s = .next (endCommand .notOpen s) := by
  simp only [List.forall_mem_cons, List.not_mem_nil, false_implies, implies_true, and_true]
  exact ⟨by rw [exec_paintSingle, paint_closed _ _ _ _ s h], by rw [exec_paintDual, paint_closed _ _ _ _ s h],
    by rw [exec_paintDualDefault, paint_closed _ _ _ _ s h], exec_sendRaw_closed raw h⟩

/-- Settles O32: CLOSE by the link state it finds, and the commands after it on the closed link it leaves. -/
theorem closeReleasesTheLink : Obligations.CloseReleasesTheLink :=
  ⟨fun P raw => decode_encodedWord (i := .closeLink) rfl rfl P raw, fun _ => exec_closeLink_opened,
    fun _ => exec_closeLink_closed,
    fun _ _ addr top bottom P raw h => exec_notOpen (linkState_of_closeLink h) addr top bottom P raw⟩

/-! ### SEND_RAW (R127, R129) -/

/-- R44, R127: one write answered `Done` is on WIRE as it is, of any length, and the command ends with OK. -/
theorem runWrites_single_done (m : OnFail) (b : List Byte) {s : State} {as : List LinkAnswer}
    (h : s.linkAnswers = .done :: as) :
    runWrites m [b] s = endCommand .ok { s with
      linkAnswers := as, wire := s.wire ++ b
      writeLog := s.writeLog ++ [{ requested := b, emitted := b.length, ok := true }]
      transit := if b = [] then s.transit else s.transit ++ [.whole b] } := by
  rw [runWrites_done m b [] s as h, runWrites_nil]
  rfl

/-- R44, R127: one write answered `Fail(k)` leaves its first `k` bytes, and the command ends with IO. -/
theorem runWrites_single_fail (m : OnFail) (b : List Byte) {s : State} {k : Nat} {as : List LinkAnswer}
    (h : s.linkAnswers = .fail k :: as) :
    runWrites m [b] s = endCommand .io (m.release { s with
      linkAnswers := as, wire := s.wire ++ b.take k
      writeLog := s.writeLog ++ [{ requested := b, emitted := min k b.length, ok := false }]
      transit := if b.take k = [] then s.transit else s.transit ++ [.cut (b.take k)] }) := by
  rw [runWrites_fail m b [] s k as h, ← List.length_take]
  rfl

/-- Settles O33: the word is the encoding's; then NOT_OPEN on a closed link, and on an open one a case for each answer
to the one write. -/
theorem sendRawInEveryCase : Obligations.SendRawInEveryCase := by
  intro raw s
  refine ⟨fun P => decode_encodedWord (i := .sendRaw raw) rfl rfl P raw, exec_sendRaw_closed raw,
    fun hl h => ?unanswered, fun hl as h => ?done, fun hl k as h => ?fail⟩
  all_goals rw [exec_sendRaw_opened raw hl]
  case unanswered => rw [runWrites_unanswered _ _ _ s h]; rfl
  case done => rw [runWrites_single_done _ raw h]; rfl
  case fail => rw [runWrites_single_fail _ raw h]; rfl

/-! ### OPEN (R120 to R123) -/

/-- R80, R82: a panel of cells that are all 0 is 28 bytes 0x00. -/
theorem encodePanel_zero {P : PixelOperand} (h : ∀ r < 7, ∀ c < 28, P.cell r c = 0) :
    encodePanel P = List.replicate 28 0x00 := by
  refine List.eq_replicate_iff.mpr ⟨length_encodePanel P, fun b hb => ?_⟩
  obtain ⟨c, hc, rfl⟩ := List.mem_map.mp hb
  have column : panelColumn P c = List.replicate 7 0 :=
    List.eq_replicate_iff.mpr ⟨by simp [panelColumn], fun v hv => by
      obtain ⟨r, hr, rfl⟩ := List.mem_map.mp hv
      exact h r (List.mem_range.mp hr) c (List.mem_range.mp hc)⟩
  rw [column]
  decide

/-- R76: the cells of `ZERO(R, C)` are 0. -/
theorem cell_zeroBuffer {R C r c : Nat} (hr : r < R) (hc : c < C) : (zeroBuffer R C).cell r c = 0 :=
  cell_ofFn R C _ hr hc

/-- R123: a blank frame, to one address. -/
def blankFrame (addr : Byte) : List Byte := [0x80, 0x83, addr] ++ List.replicate 28 0x00 ++ [0x8F]

theorem length_blankFrame (addr : Byte) : (blankFrame addr).length = 32 := rfl

theorem paintFrame_zero (addr : Byte) {P : PixelOperand} (h : ∀ r < 7, ∀ c < 28, P.cell r c = 0) :
    paintFrame addr P = blankFrame addr := by
  rw [paintFrame, encodePanel_zero h]
  rfl

/-- R120, R123: the two frames of OPEN's blank paint. -/
theorem dualFrames_zeroBuffer (top bottom : Byte) :
    dualFrames top bottom (zeroBuffer 14 28) = [blankFrame top, blankFrame bottom] := by
  have htop : ∀ r < 7, ∀ c < 28, (topHalf (zeroBuffer 14 28)).cell r c = 0 := fun r hr c hc =>
    (cell_topHalf _ hr hc).trans (cell_zeroBuffer (by omega) hc)
  have hbottom : ∀ r < 7, ∀ c < 28, (bottomHalf (zeroBuffer 14 28)).cell r c = 0 := fun r hr c hc =>
    (cell_bottomHalf _ hr hc).trans (cell_zeroBuffer (by omega) hc)
  rw [dualFrames, splitDual, paintFrame_zero top htop, paintFrame_zero bottom hbottom]

/-- R120: where OPEN makes its blank paint: its operands are in the addresses, and PLATFORM's Ok has opened the link. -/
def State.portOpened (top bottom : Byte) (ps : List PortAnswer) (s : State) : State :=
  { s with topAddr := top, bottomAddr := bottom, portAnswers := ps, linkState := .opened }

@[simp] theorem portOpened_linkAnswers (top bottom : Byte) (ps : List PortAnswer) (s : State) :
    (s.portOpened top bottom ps).linkAnswers = s.linkAnswers := rfl

/-- R120, R123: an OPEN that PLATFORM answers with Ok paints its two blank frames. -/
theorem exec_openLink_ok (top bottom : Byte) {s : State} {ps : List PortAnswer} (hl : s.linkState = .closed)
    (hp : s.portAnswers = .ok :: ps) :
    exec (.openLink top bottom) s =
      .next (runWrites .releaseLink [blankFrame top, blankFrame bottom] (s.portOpened top bottom ps)) := by
  rw [exec_openLink_closed top bottom hl, openPort_ok { s with topAddr := top, bottomAddr := bottom } ps hp,
    dualFrames_zeroBuffer]
  rfl

/-- Settles O31: the word is the encoding's; then ALREADY_OPEN, a case for each answer of PLATFORM, and where that is Ok
one for each list of answers to the two blank frames. -/
theorem openInEveryCase : Obligations.OpenInEveryCase := by
  intro top bottom s
  refine ⟨?word, exec_openLink_opened top bottom, fun hl => ⟨fun hp => ?unanswered, fun ps hp => ?refused,
    fun ps hp => ?blankPaint⟩⟩
  case word =>
    intro w P raw hw
    exact decode_encodedWord (i := .openLink (aField w) (bField w)) rfl ((mask_freeAB w opOpen 0 0).mp hw) P raw
  case unanswered =>
    rw [exec_openLink_closed top bottom hl, openPort_unanswered { s with topAddr := top, bottomAddr := bottom } hp]
    rfl
  case refused =>
    rw [exec_openLink_closed top bottom hl, openPort_fail { s with topAddr := top, bottomAddr := bottom } ps hp]
    rfl
  case blankPaint =>
    intro f g hf hg
    obtain rfl : f = blankFrame top := hf
    obtain rfl : g = blankFrame bottom := hg
    have htop := length_blankFrame top
    have hbottom := length_blankFrame bottom
    -- each case below is about the answers that stand in the state the blank paint starts from
    rw [exec_openLink_ok top bottom hl hp, ← portOpened_linkAnswers top bottom ps s]
    refine ⟨fun h => ?noneAnswered, fun k as h => ?firstFails, fun h => ?secondUnanswered,
      fun k as h => ?secondFails, fun as h => ?bothDone⟩
    case noneAnswered => rw [runWrites_unanswered _ _ _ _ h]; rfl
    case firstFails => rw [runWrites_frame_fail htop _ _ h]; rfl
    case secondUnanswered => rw [runWrites_frame_done htop _ _ h, runWrites_unanswered _ _ _ _ rfl]; rfl
    case secondFails => rw [runWrites_frames_done_fail htop hbottom _ h]; rfl
    case bothDone => rw [runWrites_frames_done_done htop hbottom _ h]; rfl

end Sys2Proof.Machine
end

section
/-! SUPPORT. The panels (R144 to R149): what a frame's reception adds to a panel's log and asks of the panel, the frames a
successful command puts on the link, and their reception by the next steps. -/

namespace Sys2Proof

/-! ### What a frame asks for (R145 to R147) -/

/-- R145, R146: a settled frame asks for bit `k` of data byte `c` at each dot of a panel. -/
theorem asks_settled {f : Frame} (hf : f.settled = true) {k c : Nat} (hk : k < 7) (hc : c < 28) :
    f.asks k c = some ((f.data.getD c 0).getLsbD k) := by
  simp [Frame.asks, hf, hk, hc]

theorem asks_unsettled {f : Frame} (hf : f.settled = false) (k c : Nat) : f.asks k c = none := by
  simp [Frame.asks, hf]

/-- R146, R147: the frames with a settled request. -/
theorem settled_iff (f : Frame) :
    f.settled = true ↔ f.mode = .dataRefresh ∧ f.data.length = 28 ∧ ∀ b ∈ f.data, b.toNat ≤ 0x7F := by
  simp only [Frame.settled, Bool.and_eq_true, beq_iff_eq, clear_iff, and_assoc]

theorem clear_of_settled {f : Frame} (hf : f.settled = true) : f.clear = true := by
  obtain ⟨-, -, hdata⟩ := (settled_iff f).mp hf
  exact (clear_iff f).mpr hdata

/-- R86: the standard frame of one panel. -/
def panelFrame (addr : Byte) (P : PixelOperand) : Frame :=
  { mode := .dataRefresh, addr := addr, data := Machine.encodePanel P }

@[simp] theorem panelFrame_addr (addr : Byte) (P : PixelOperand) : (panelFrame addr P).addr = addr := rfl

theorem bytes_ne_nil (f : Frame) : f.bytes ≠ [] := by simp [Frame.bytes, frameBytes]

namespace Machine

/-- R74, R86, R146: the frame of a validated panel is settled. -/
theorem settled_panelFrame (addr : Byte) {P : PixelOperand} (h : IsBuffer P 7 28) :
    (panelFrame addr P).settled = true :=
  (settled_iff _).mpr ⟨rfl, length_encodePanel P, encodePanel_le h⟩

/-- R89, R149: the frame of a validated panel asks for a dot exactly when its cell is 1. -/
theorem asks_panelFrame (addr : Byte) {P : PixelOperand} (h : IsBuffer P 7 28) {k c : Nat} (hk : k < 7)
    (hc : c < 28) : (panelFrame addr P).asks k c = some (P.cell k c == 1) := by
  rw [asks_settled (settled_panelFrame addr h) hk hc, panelFrame, encodePanel_getD P hc,
    getLsbD_packColumn (panelColumn_binary h hc) hk, panelColumn_getD P c hk]

/-- R84: each half of a dual buffer is a panel buffer. -/
theorem isBuffer_splitDual {P : PixelOperand} (h : IsBuffer P 14 28) :
    IsBuffer (splitDual P).1 7 28 ∧ IsBuffer (splitDual P).2 7 28 :=
  ⟨isBuffer_topHalf h, isBuffer_bottomHalf h⟩

/-! ### A panel's log (R144, R147, R204) -/

/-- R144: a frame whose data bytes have bit 7 clear reaches the panels that accept its address. -/
theorem hear_of_clear {f : Frame} (hf : f.clear = true) : Panel.hear f = fun p =>
    if f.addr = 0xFF ∨ f.addr = dipValue p.switches then { p with heard := p.heard ++ [.frame f] } else p := by
  funext p
  rw [Panel.hear, if_pos hf]
  simp only [accepts_iff]

theorem hear_of_unclear {f : Frame} (hf : f.clear = false) : Panel.hear f = Panel.hearStray f.bytes :=
  funext fun p => hear_unclear f p hf

/-- Settles O39: each of the three frames is run as its reception, which is `Panel.hear` at every panel. -/
theorem framesReachTheAcceptingPanels : Obligations.FramesReachTheAcceptingPanels := by
  intro addr data mode i s hi
  obtain rfl : i = Frame.instr { mode := mode, addr := addr, data := data } := by
    rcases hi with ⟨rfl, rfl⟩ | ⟨rfl, rfl⟩ | ⟨rfl, rfl⟩ <;> rfl
  rw [exec_frameInstr, receiveFrame]
  refine ⟨fun hclear => ?clear, fun hbad => ?unclear⟩
  case clear => rw [hear_of_clear ((clear_iff _).mpr hclear)]
  case unclear => rw [hear_of_unclear ((unclear_iff _).mpr hbad)]; rfl

/-- R146: with no stray bytes before it, a panel is asked for what the frame it has just accepted asks for. -/
theorem asked_hear {f : Frame} {p : Panel} (hf : f.clear = true) (hp : p.accepts f.addr = true)
    (hs : ∀ h ∈ p.heard, h.isStray = false) (k c : Nat) : (p.hear f).asked k c = f.asks k c := by
  have hany : (p.heard ++ [Heard.frame f]).any Heard.isStray = false := by
    rw [List.any_append, List.any_eq_false.mpr (by simpa using hs)]
    rfl
  rw [hear_accepted f p hf hp, Panel.asked, hany]
  simp

/-- R144: a frame whose data bytes have bit 7 clear adds no stray bytes to a log. -/
theorem strayFree_hear {f : Frame} {p : Panel} (hf : f.clear = true) (hs : ∀ h ∈ p.heard, h.isStray = false) :
    ∀ h ∈ (p.hear f).heard, h.isStray = false := by
  cases hp : p.accepts f.addr with
  | false => rwa [hear_rejected f p hf hp]
  | true =>
    rw [hear_accepted f p hf hp]
    exact List.forall_mem_append.mpr ⟨hs, by simp [Heard.isStray]⟩

/-- A log only grows. -/
theorem heard_prefix_hear (f : Frame) (p : Panel) : p.heard <+: (p.hear f).heard := by
  unfold Panel.hear Panel.hearStray
  split_ifs
  · exact List.prefix_append _ _
  · exact List.prefix_rfl
  · exact List.prefix_append _ _

/-- R147, R204: after stray bytes a panel is asked for no dot, by any frames. -/
theorem asked_after_stray {p : Panel} (hs : ∃ h ∈ p.heard, h.isStray = true) (fs : List Frame) (k c : Nat) :
    (fs.foldl (fun q f => q.hear f) p).asked k c = none := by
  induction fs generalizing p with
  | nil => exact if_pos (List.any_eq_true.mpr hs)
  | cons f fs ih =>
    obtain ⟨h, hmem, hstray⟩ := hs
    exact ih ⟨h, (heard_prefix_hear f p).subset hmem, hstray⟩

/-- Settles O41: the frame is settled, and nothing in the panel's log hides it. -/
theorem standardFrameAsksForItsDots : Obligations.StandardFrameAsksForItsDots := by
  intro addr d p hlen hd hp hs k hk c hc
  have hf : Frame.settled { mode := .dataRefresh, addr := addr, data := d } = true := (settled_iff _).mpr ⟨rfl, hlen, hd⟩
  rw [asked_hear (clear_of_settled hf) hp hs, asks_settled hf hk hc]

/-- Settles O42: each of the three cases is one of the conditions of a settled frame that fails, and stray bytes stay in
the log whatever frames follow. -/
theorem openFramesAskForNothing : Obligations.OpenFramesAskForNothing := by
  refine ⟨fun f hopen => asks_unsettled ?unsettled, fun p b fs => asked_after_stray ⟨.stray b, ?stray, rfl⟩ fs⟩
  case unsettled =>
    rw [← Bool.not_eq_true, settled_iff]
    rintro ⟨hmode, hlen, hdata⟩
    rcases hopen with h | h | ⟨b, hb, h⟩
    · exact h hmode
    · exact h hlen
    · exact absurd (hdata b hb) (not_le.mpr h)
  case stray => exact List.mem_append_right _ (List.mem_singleton_self _)

/-! ### The frames of a successful command, on WIRE and on the link (R44, R45, R56) -/

/-- From `s` to `t` the frames `fs` were written whole, in their order, and the panels have not got them yet. -/
structure SentWhole (fs : List Frame) (s t : State) : Prop where
  wire : t.wire = s.wire ++ fs.flatMap Frame.bytes
  transit : t.transit = s.transit ++ fs.map fun f => .whole f.bytes
  panels : t.panels = s.panels

/-- R44, R45: the frames whose writes LINK answers `Done` are all sent whole. -/
theorem runWrites_sentWhole (m : OnFail) (fs : List Frame) {s : State} {as : List LinkAnswer}
    (h : s.linkAnswers = List.replicate fs.length .done ++ as) :
    SentWhole fs s (runWrites m (fs.map Frame.bytes) s) := by
  induction fs generalizing s with
  | nil => exact ⟨by simp [runWrites_nil], by simp [runWrites_nil], rfl⟩
  | cons f fs ih =>
    rw [List.map_cons, runWrites_done m f.bytes (fs.map Frame.bytes) s
      (List.replicate fs.length LinkAnswer.done ++ as) h]
    have hsent : sendToPanels f.bytes .done s.transit = s.transit ++ [.whole f.bytes] :=
      sendToPanels_some (a := .done) (bytes_ne_nil f) s.transit
    obtain ⟨hwire, htransit, hpanels⟩ :=
      ih (s := txWrite f.bytes .done { s with linkAnswers := List.replicate fs.length .done ++ as }) rfl
    refine ⟨hwire.trans ?_, htransit.trans ?_, hpanels⟩
    · simp [LinkAnswer.emitted]
    · simp [hsent]

/-- R100, R104: a paint of a valid operand on an open link, its writes answered `Done`, sends its frames whole. -/
theorem paint_sentWhole {P : PixelOperand} {R C : Nat} {s : State} {as : List LinkAnswer} (fs : List Frame)
    (hl : s.linkState = .opened) (hP : IsBuffer P R C) (h : s.linkAnswers = List.replicate fs.length .done ++ as) :
    SentWhole fs s (paint P R C (fs.map Frame.bytes) s) := by
  rw [paint_buffer _ hl hP]
  exact runWrites_sentWhole .keepLink fs h

/-! ### The reception of a frame (R144, R149) -/

/-- R56, R144: a step with a frame first on the link is its reception at every panel. -/
theorem step_receives {s : State} {f : Frame} {xs : List Sent} (hx : s.transit = .whole f.bytes :: xs) :
    ∃ t, step s = .next t ∧ t.transit = xs ∧ t.panels = s.panels.map (Panel.hear f) :=
  ⟨_, (step_frame hx (decode_frame_bytes f)).trans (exec_frameInstr f _), rfl, rfl⟩

/-- Settles O45: the command sends the one frame of its panel, the next step is its reception, and each panel either
rejects it or is asked for its cells. -/
theorem paintSingleReachesThePanels : Obligations.PaintSingleReachesThePanels := by
  intro addr P s as hl hP ha hx
  obtain ⟨-, htransit, hpanels⟩ := paint_sentWhole [panelFrame addr P] hl hP ha
  obtain ⟨u, hu, hutransit, hupanels⟩ := step_receives (f := panelFrame addr P) (xs := []) (by rw [htransit, hx]; rfl)
  refine ⟨_, u, exec_paintSingle addr P s, hu, hutransit, ?panels⟩
  rw [hupanels, hpanels, List.forall₂_map_right_iff, List.forall₂_same]
  intro p _
  have hclear := clear_of_settled (settled_panelFrame addr hP)
  refine ⟨fun hp => hear_rejected _ p hclear hp, fun hp hs k hk c hc => ?asked⟩
  case asked => rw [asked_hear hclear hp hs, asks_panelFrame addr hP hk hc]

/-- Settles O46: the command sends the frames of its two halves, the next two steps are their receptions, top first, and
a panel is asked for the last of the two that it accepts. -/
theorem paintDualReachesThePanels : Obligations.PaintDualReachesThePanels := by
  intro top bottom P s as hl hP ha hx
  obtain ⟨-, htransit, hpanels⟩ :=
    paint_sentWhole [panelFrame top (splitDual P).1, panelFrame bottom (splitDual P).2] hl hP ha
  obtain ⟨u, hu, hutransit, hupanels⟩ := step_receives (f := panelFrame top (splitDual P).1)
    (xs := [.whole (panelFrame bottom (splitDual P).2).bytes]) (by rw [htransit, hx]; rfl)
  obtain ⟨v, hv, hvtransit, hvpanels⟩ := step_receives hutransit
  refine ⟨_, u, v, exec_paintDual top bottom P s, hu, hv, hvtransit, ?panels⟩
  rw [hvpanels, hupanels, hpanels, List.map_map, List.forall₂_map_right_iff, List.forall₂_same]
  intro p _
  obtain ⟨htopHalf, hbottomHalf⟩ := isBuffer_splitDual hP
  have htop := clear_of_settled (settled_panelFrame top htopHalf)
  have hbottom := clear_of_settled (settled_panelFrame bottom hbottomHalf)
  rw [Function.comp_apply]
  refine ⟨fun ht hb => ?neither, fun ht hb => ?both, fun hs k hk c hc => ⟨fun hb => ?bottom, fun ht hb => ?topOnly⟩⟩
  case neither => rw [hear_rejected _ p htop ht, hear_rejected _ p hbottom hb]
  case both =>
    rw [hear_accepted _ _ hbottom (by rwa [hear_accepts]), hear_accepted _ p htop ht]
    exact List.append_assoc _ _ _
  case bottom =>
    rw [asked_hear hbottom (by rwa [hear_accepts]) (strayFree_hear htop hs), asks_panelFrame bottom hbottomHalf hk hc]
    exact congrArg (fun v => some (v == 1)) (cell_bottomHalf P hk hc)
  case topOnly =>
    rw [hear_rejected _ _ hbottom (by rwa [hear_accepts]), asked_hear htop ht hs, asks_panelFrame top htopHalf hk hc]
    exact congrArg (fun v => some (v == 1)) (cell_topHalf P hk hc)

end Machine

end Sys2Proof
end

section
/-! SUPPORT. The reader of WIRE (R148): it reads a standard frame back as its address and columns, and a stream with more
such frames after it as what it read before and those. -/

namespace Sys2Proof.Machine

/-! ### One piece (R148 steps 2 to 4) -/

/-- What R148 reads from a frame: its address and its columns of 7 cells. -/
def framePixels (f : Frame) : Byte × List (List Nat) := (f.addr, f.data.map unpackColumn)

/-- R148: a standard frame is one piece that is read. -/
theorem readPiece_bytes {f : Frame} (hmode : f.mode = .dataRefresh) (hlen : f.data.length = 28) :
    readPiece f.bytes = some (framePixels f) := by
  have hbytes : f.bytes = 0x80 :: 0x83 :: f.addr :: (f.data ++ [0x8F]) := by rw [Frame.bytes, hmode]; rfl
  have hlast : (f.data ++ [0x8F]).getD 28 0 = 0x8F := by
    rw [List.getD_append_right _ _ _ _ hlen.le, hlen]
    rfl
  have hdata : (f.data ++ [0x8F]).take 28 = f.data := List.take_left' hlen
  rw [hbytes, readPiece, if_pos ⟨rfl, rfl, hlast⟩, List.drop_succ_cons, List.drop_succ_cons, List.drop_succ_cons,
    List.drop_zero, hdata]
  rfl

/-- R81, R82: the columns of a validated panel are read back from its frame. -/
theorem framePixels_panelFrame (addr : Byte) {P : PixelOperand} (h : IsBuffer P 7 28) :
    framePixels (panelFrame addr P) = (addr, panelColumns P) := by
  have hcolumns : (encodePanel P).map unpackColumn = panelColumns P := by
    rw [encodePanel, panelColumns, List.map_map]
    refine List.map_congr_left fun c hc => ?_
    exact unpackColumn_packColumn (by simp [panelColumn]) (panelColumn_binary h (List.mem_range.mp hc))
  rw [framePixels, panelFrame, hcolumns]

/-! ### The stream (R148 step 1) -/

/-- A piece more at the end of the stream is a piece more at the end of the list. -/
theorem cutWire_append (n : Nat) {w b : List Byte} (hw : w.length = 32 * n) (hb : b.length = 32) :
    cutWire (n + 1) (w ++ b) = cutWire n w ++ [b] := by
  induction n generalizing w with
  | zero =>
    obtain rfl : w = [] := List.length_eq_zero_iff.mp hw
    simp [cutWire, ← hb]
  | succ n ih =>
    rw [cutWire, List.take_append_of_le_length (by omega), List.drop_append_of_le_length (by omega),
      ih (by rw [List.length_drop]; omega)]
    rfl

/-- A stream parses when it is some number of pieces and each is read. -/
theorem parseWire_iff (w : List Byte) (xs : List (Byte × List (List Nat))) :
    parseWire w = some xs ↔ ∃ n, w.length = 32 * n ∧ (cutWire n w).mapM readPiece = some xs := by
  unfold parseWire
  split_ifs with h
  · refine ⟨fun hxs => ⟨w.length / 32, by omega, hxs⟩, fun ⟨n, hn, hxs⟩ => ?_⟩
    rwa [show w.length / 32 = n by omega]
  · exact ⟨nofun, fun ⟨n, hn, _⟩ => absurd hn (by omega)⟩

theorem parseWire_append {w b : List Byte} {xs : List (Byte × List (List Nat))} {x : Byte × List (List Nat)}
    (hw : parseWire w = some xs) (hlen : b.length = 32) (hb : readPiece b = some x) :
    parseWire (w ++ b) = some (xs ++ [x]) := by
  rw [parseWire_iff] at hw ⊢
  obtain ⟨n, hn, hxs⟩ := hw
  refine ⟨n + 1, by rw [List.length_append]; omega, ?_⟩
  rw [cutWire_append n hn hlen, List.mapM_append, hxs]
  simp [hb]

/-- R148: standard frames written after a stream that parses are read after what it read before. -/
theorem parseWire_frames {w : List Byte} {xs : List (Byte × List (List Nat))} (hw : parseWire w = some xs)
    {fs : List Frame} (hfs : ∀ f ∈ fs, f.mode = .dataRefresh ∧ f.data.length = 28) :
    parseWire (w ++ fs.flatMap Frame.bytes) = some (xs ++ fs.map framePixels) := by
  induction fs generalizing w xs with
  | nil => simpa using hw
  | cons f fs ih =>
    obtain ⟨⟨hmode, hlen⟩, hrest⟩ := List.forall_mem_cons.mp hfs
    have hf := parseWire_append hw (by rw [Frame.bytes, length_frameBytes, hlen]) (readPiece_bytes hmode hlen)
    simpa using ih hf hrest

theorem SentWhole.parse {fs : List Frame} {s t : State} (h : SentWhole fs s t) {xs : List (Byte × List (List Nat))}
    (hs : parseWire s.wire = some xs) (hfs : ∀ f ∈ fs, f.mode = .dataRefresh ∧ f.data.length = 28) :
    parseWire t.wire = some (xs ++ fs.map framePixels) := by
  rw [h.wire]
  exact parseWire_frames hs hfs

/-! ### The commands (R100, R104, R108, R120) -/

/-- R104, R148: a dual paint adds its two halves, top first, to what WIRE parses to. -/
theorem paintDual_parse {s : State} {xs : List (Byte × List (List Nat))} {as : List LinkAnswer} {P : PixelOperand}
    (hs : parseWire s.wire = some xs) (hl : s.linkState = .opened) (hP : IsBuffer P 14 28)
    (ha : s.linkAnswers = .done :: .done :: as) (top bottom : Byte) :
    parseWire (paint P 14 28 (dualFrames top bottom P) s).wire =
      some (xs ++ [(top, panelColumns (splitDual P).1), (bottom, panelColumns (splitDual P).2)]) := by
  have hsent := paint_sentWhole [panelFrame top (splitDual P).1, panelFrame bottom (splitDual P).2] hl hP ha
  obtain ⟨htop, hbottom⟩ := isBuffer_splitDual hP
  rw [← framePixels_panelFrame top htop, ← framePixels_panelFrame bottom hbottom]
  exact hsent.parse hs (by simp [panelFrame])

/-- R123: the frame whose bytes are `blankFrame`. -/
def blank (addr : Byte) : Frame := { mode := .dataRefresh, addr := addr, data := List.replicate 28 0x00 }

theorem bytes_blank (addr : Byte) : (blank addr).bytes = blankFrame addr := rfl

/-- R76, R81: a blank frame is read back as 28 columns of cells that are 0. -/
theorem framePixels_blank (addr : Byte) :
    framePixels (blank addr) = (addr, List.replicate 28 (List.replicate 7 0)) := by
  have hcolumn : unpackColumn 0x00 = List.replicate 7 0 := by decide
  rw [framePixels, blank, List.map_replicate, hcolumn]

/-- Settles O44: each command writes standard frames only, and the reader finds its addresses and pixels in them. -/
theorem paintedWireParsesBack : Obligations.PaintedWireParsesBack := by
  intro s t xs as hs
  refine ⟨?single, ?dual, ?dualDefault, ?openLink⟩
  case single =>
    intro addr P hl hP ha h
    cases (exec_paintSingle addr P s).symm.trans h
    rw [← framePixels_panelFrame addr hP]
    exact (paint_sentWhole [panelFrame addr P] hl hP ha).parse hs (by simp [panelFrame])
  case dual =>
    intro top bottom P hl hP ha h
    cases (exec_paintDual top bottom P s).symm.trans h
    exact paintDual_parse hs hl hP ha top bottom
  case dualDefault =>
    intro P hl hP ha h
    cases (exec_paintDualDefault P s).symm.trans h
    exact paintDual_parse hs hl hP ha s.topAddr s.bottomAddr
  case openLink =>
    intro top bottom ps hl hp ha h
    cases (exec_openLink_ok top bottom hl hp).symm.trans h
    have hsent := runWrites_sentWhole .releaseLink [blank top, blank bottom] (s := s.portOpened top bottom ps) ha
    rw [List.map_cons, List.map_singleton, bytes_blank, bytes_blank] at hsent
    rw [← framePixels_blank top, ← framePixels_blank bottom]
    exact hsent.parse hs (by simp [blank])

end Sys2Proof.Machine
end

section
/-! SUPPORT. How a step ends a command (R25, R160, R161, R166): it always answers a next state, it reports one code or
nothing, and a command that reports any code but OK and IO has left the link as it was. -/

namespace Sys2Proof.Machine

/-! ### A next state in every case (R161, R178) -/

theorem exec_next (i : Instr) (s : State) : ∃ t, exec i s = .next t := by
  cases i with
  | openLink top bottom =>
    cases h : s.linkState with
    | closed => exact ⟨_, exec_openLink_closed top bottom h⟩
    | opened => exact ⟨_, exec_openLink_opened top bottom h⟩
  | closeLink =>
    cases h : s.linkState with
    | closed => exact ⟨_, exec_closeLink_closed h⟩
    | opened => exact ⟨_, exec_closeLink_opened h⟩
  | sendRaw raw =>
    cases h : s.linkState with
    | closed => exact ⟨_, exec_sendRaw_closed raw h⟩
    | opened => exact ⟨_, exec_sendRaw_opened raw h⟩
  | paintSingle addr P => exact ⟨_, exec_paintSingle addr P s⟩
  | paintDual top bottom P => exact ⟨_, exec_paintDual top bottom P s⟩
  | paintDualDefault P => exact ⟨_, exec_paintDualDefault P s⟩
  | frameRefresh addr data => exact ⟨_, exec_frameInstr { mode := .refresh, addr := addr, data := data } s⟩
  | frameDataRefresh addr data => exact ⟨_, exec_frameInstr { mode := .dataRefresh, addr := addr, data := data } s⟩
  | frameDataNoRefresh addr data => exact ⟨_, exec_frameInstr { mode := .dataNoRefresh, addr := addr, data := data } s⟩

/-- Settles O15: of the actions of a step only running an instruction could stop the machine, and no instruction does. -/
theorem stepAlwaysAnswersANextState : Obligations.StepAlwaysAnswersANextState := by
  intro s
  rw [step]
  cases nextAction s with
  | run i s' => exact exec_next i s'
  | illegal s' => exact ⟨_, rfl⟩
  | stray b s' => exact ⟨_, rfl⟩
  | goOn p => exact ⟨_, rfl⟩
  | wait => exact ⟨_, rfl⟩

/-! ### The code a command ends with (R25, R160, R166) -/

/-- No command ended between the two states. -/
def Silent (s t : State) : Prop := t.status = s.status ∧ t.responses = s.responses

/-- R166: one command ended between the two states, with the code `c`. -/
def EndsWith (c : Code) (s t : State) : Prop := t.phase = .idle ∧ t.status = c ∧ t.responses = s.responses ++ [c]

/-- R44: no write was made between the two states. -/
def WritesNothing (s t : State) : Prop := t.wire = s.wire ∧ t.writeLog = s.writeLog ∧ t.transit = s.transit

/-- What the writes of a command report (R45, R46): nothing while they wait, then OK or IO. -/
def ReportsWrites (s t : State) : Prop := Silent s t ∨ EndsWith .ok s t ∨ EndsWith .io s t

/-- What a command reports (R160, R166): nothing while it waits, then OK, IO, or a code before any write. -/
def Reports (s t : State) : Prop := ReportsWrites s t ∨ ∃ c, EndsWith c s t ∧ WritesNothing s t

theorem endsWith_endCommand (c : Code) (s : State) : EndsWith c s (endCommand c s) := ⟨rfl, rfl, rfl⟩

theorem reports_silent {s t : State} (h : Silent s t) : Reports s t := .inl (.inl h)

theorem reports_endCommand (c : Code) (s : State) : Reports s (endCommand c s) :=
  .inr ⟨c, endsWith_endCommand c s, rfl, rfl, rfl⟩

theorem runWrites_reports (m : OnFail) (bs : List (List Byte)) (s : State) : ReportsWrites s (runWrites m bs s) := by
  refine runWrites_induct m ReportsWrites ?nil ?unanswered ?done ?fail bs s
  case nil => exact fun s => .inr (.inl (endsWith_endCommand .ok s))
  case unanswered => exact fun b bs s _ => .inl ⟨rfl, rfl⟩
  case done => exact fun b s as t _ ih => ih
  case fail => exact fun b s k as _ => .inr (.inr ⟨rfl, rfl, by simp⟩)

theorem openPort_reports (s : State) : Reports s (openPort s) := by
  refine openPort_induct Reports s ?unanswered ?fail ?ok
  case unanswered => exact fun _ => reports_silent ⟨rfl, rfl⟩
  case fail => exact fun ps _ => reports_endCommand .connection { s with portAnswers := ps }
  case ok => exact fun ps _ => .inl (runWrites_reports .releaseLink _ { s with portAnswers := ps, linkState := .opened })

theorem resume_reports (p : Progress) (s : State) : Reports s (resume p s) := by
  cases p with
  | opening q => exact openPort_reports s
  | writing m bs => exact .inl (runWrites_reports m bs s)

theorem exec_reports {i : Instr} {s t : State} (h : exec i s = .next t) : Reports s t := by
  refine exec_induct Reports i s t h ?ended ?closed ?opening ?writing ?received
  case ended => exact fun c _ => reports_endCommand c s
  case closed => exact fun _ _ => reports_endCommand .ok { s with linkState := .closed }
  case opening => exact fun top bottom _ _ => openPort_reports { s with topAddr := top, bottomAddr := bottom }
  case writing => exact fun bs _ _ => .inl (runWrites_reports .keepLink bs s)
  case received => exact fun f _ => reports_silent ⟨rfl, rfl⟩

theorem step_reports {s t : State} (h : step s = .next t) : Reports s t := by
  refine step_induct_block Reports s t h ?panels ?goesOn ?illegal ?command
  case panels => exact fun xs ps => reports_silent ⟨rfl, rfl⟩
  case goesOn => exact fun p _ => resume_reports p s
  case illegal => exact fun c cs _ _ => reports_endCommand .illegalCommand { s with commands := cs }
  case command => exact fun c cs i u _ _ _ hu => exec_reports (s := { s with commands := cs }) hu

/-- Whatever it writes, a command is silent or ends with one code. -/
theorem Reports.silent_or_endsWith {s t : State} (h : Reports s t) : Silent s t ∨ ∃ c, EndsWith c s t := by
  rcases h with (hs | hok | hio) | ⟨c, hc, -⟩
  · exact .inl hs
  · exact .inr ⟨.ok, hok⟩
  · exact .inr ⟨.io, hio⟩
  · exact .inr ⟨c, hc⟩

/-- A command that ended has one code: the response it gave is that code. -/
theorem EndsWith.code_eq {c d : Code} {s t : State} (h : EndsWith c s t) (ht : t.responses = s.responses ++ [d]) :
    c = d := by
  obtain ⟨-, -, hr⟩ := h
  simpa [hr] using ht

theorem Silent.not_responds {s t : State} (h : Silent s t) (c : Code) : t.responses ≠ s.responses ++ [c] := by
  obtain ⟨-, hr⟩ := h
  simp [hr]

/-- Settles O18: a step is silent, or ends one command, whose code is then both STATUS and the response. -/
theorem theResponseIsTheNewStatus : Obligations.TheResponseIsTheNewStatus := by
  intro s t h
  rcases (step_reports h).silent_or_endsWith with hs | ⟨c, hp, rfl, hr⟩
  · exact .inl hs
  · exact .inr ⟨hp, hr⟩

/-- Settles O26: a response that is neither OK nor IO comes from an end before any write. -/
theorem rejectedCommandsWriteNothing : Obligations.RejectedCommandsWriteNothing := by
  intro i s t c h hr hok hio
  rcases exec_reports h with (hs | he | he) | ⟨d, he, hw, hl, hx⟩
  · exact absurd hr (hs.not_responds c)
  · exact absurd (he.code_eq hr).symm hok
  · exact absurd (he.code_eq hr).symm hio
  · cases he.code_eq hr
    obtain ⟨-, hst, -⟩ := he
    exact ⟨hw, hl, hx, hst⟩

end Sys2Proof.Machine
end

section
/-! SUPPORT. The hazards of an answer (R192, R200, R203): a command whose answers have come ends, the bytes of a cut paint
frame are no frame, and what the panels have after OPEN's blank paint and after a dual paint whose second write failed. -/

namespace Sys2Proof.Machine

/-! ### Commands whose answers have come (R46, R203) -/

/-- R46: writes that all have an answer end the command. -/
theorem runWrites_ends (m : OnFail) (bs : List (List Byte)) {s : State} (h : bs.length ≤ s.linkAnswers.length) :
    ∃ c, EndsWith c s (runWrites m bs s) := by
  induction bs generalizing s with
  | nil => exact ⟨.ok, endsWith_endCommand .ok s⟩
  | cons b bs ih =>
    match ha : s.linkAnswers with
    | [] => simp [ha] at h
    | .done :: as =>
      rw [runWrites_done m b bs s as ha]
      exact ih (s := txWrite b .done { s with linkAnswers := as }) (by simpa [ha] using h)
    | .fail k :: as =>
      rw [runWrites_fail m b bs s k as ha]
      exact ⟨.io, rfl, rfl, by simp⟩

/-- R100, R104: a paint ends at its checks or with its writes. -/
theorem paint_ends (P : PixelOperand) (R C : Nat) (fs : List (List Byte)) {s : State}
    (h : fs.length ≤ s.linkAnswers.length) : ∃ c, EndsWith c s (paint P R C fs s) := by
  rcases paint_cases P R C fs s with ⟨c, -, -, hc⟩ | ⟨-, -, hw⟩
  · exact ⟨c, hc ▸ endsWith_endCommand c s⟩
  · exact hw ▸ runWrites_ends .keepLink fs h

/-- R120, R122: an OPEN that PLATFORM has answered ends with CONNECTION or with its two writes. -/
theorem openPort_ends {s : State} (hl : 2 ≤ s.linkAnswers.length) (hp : 1 ≤ s.portAnswers.length) :
    ∃ c, EndsWith c s (openPort s) := by
  match ha : s.portAnswers with
  | [] => simp [ha] at hp
  | .fail :: ps => exact ⟨.connection, openPort_fail s ps ha ▸ ⟨rfl, rfl, rfl⟩⟩
  | .ok :: ps =>
    rw [openPort_ok s ps ha]
    exact runWrites_ends .releaseLink _ (s := { s with portAnswers := ps, linkState := .opened }) hl

/-- R203: no command makes more than two writes and one open request, so with those answered it ends. -/
theorem exec_ends {i : Instr} (hi : ∀ f : Frame, i ≠ f.instr) {s : State} (hl : 2 ≤ s.linkAnswers.length)
    (hp : 1 ≤ s.portAnswers.length) : ∃ t c, exec i s = .next t ∧ EndsWith c s t := by
  have ends {t : State} (ht : exec i s = .next t) (h : ∃ c, EndsWith c s t) :
      ∃ t c, exec i s = .next t ∧ EndsWith c s t :=
    h.elim fun c hc => ⟨t, c, ht, hc⟩
  cases i with
  | openLink top bottom =>
    cases h : s.linkState with
    | opened => exact ends (exec_openLink_opened top bottom h) ⟨_, endsWith_endCommand .alreadyOpen s⟩
    | closed =>
      exact ends (exec_openLink_closed top bottom h)
        (openPort_ends (s := { s with topAddr := top, bottomAddr := bottom }) hl hp)
  | closeLink =>
    cases h : s.linkState with
    | closed => exact ends (exec_closeLink_closed h) ⟨_, endsWith_endCommand .notOpen s⟩
    | opened => exact ends (exec_closeLink_opened h) ⟨.ok, rfl, rfl, rfl⟩
  | paintSingle addr P => exact ends (exec_paintSingle addr P s) (paint_ends _ _ _ _ (Nat.le_of_succ_le hl))
  | paintDual top bottom P => exact ends (exec_paintDual top bottom P s) (paint_ends _ _ _ _ hl)
  | paintDualDefault P => exact ends (exec_paintDualDefault P s) (paint_ends _ _ _ _ hl)
  | sendRaw raw =>
    cases h : s.linkState with
    | closed => exact ends (exec_sendRaw_closed raw h) ⟨_, endsWith_endCommand .notOpen s⟩
    | opened => exact ends (exec_sendRaw_opened raw h) (runWrites_ends .keepLink [raw] (Nat.le_of_succ_le hl))
  | frameRefresh addr data => exact absurd rfl (hi { mode := .refresh, addr := addr, data := data })
  | frameDataRefresh addr data => exact absurd rfl (hi { mode := .dataRefresh, addr := addr, data := data })
  | frameDataNoRefresh addr data => exact absurd rfl (hi { mode := .dataNoRefresh, addr := addr, data := data })

/-- Settles O34: a decoded command is no frame, so with its answers there it ends in the step. -/
theorem answeredCommandsEnd : Obligations.AnsweredCommandsEnd := by
  intro c i s hd hl hp
  exact exec_ends (decodeCommand_ne_frame hd) hl hp

/-! ### Paint frames cut short (R74, R200, R204) -/

/-- R70: bytes that are those of no frame do not decode. -/
theorem decode_frame_error {b : List Byte} (h : ∀ f : Frame, b ≠ f.bytes) : ∃ e, decode (.frame b) = .error e := by
  cases hd : decode (.frame b) with
  | error e => exact ⟨e, rfl⟩
  | ok i =>
    obtain ⟨f, hf⟩ := (decode_frame_ok_iff b).mp ⟨i, hd⟩
    exact absurd hf (h f)

/-- R70: the terminator stands behind the data. -/
theorem bytes_getD_terminator (f : Frame) : f.bytes.getD (3 + f.data.length) 0 = 0x8F := by
  simp [Frame.bytes, frameBytes, frameTerminator, List.getD, Nat.add_comm 3]

/-- R74, R81: a data byte of a valid paint frame is no terminator. -/
theorem paintFrame_getD_ne_terminator (addr : Byte) {P : PixelOperand} (hP : IsBuffer P 7 28) {c : Nat} (hc : c < 28) :
    (paintFrame addr P).getD (3 + c) 0 ≠ 0x8F := by
  rw [paintFrame_getD addr P hc]
  exact packColumn_ne (panelColumn_binary hP hc) (by decide)

/-- R74: a frame that a proper prefix of a valid paint frame made up would end in one of the paint frame's data bytes. -/
theorem paintFrame_take_ne_bytes (addr : Byte) {P : PixelOperand} (hP : IsBuffer P 7 28) {k : Nat} (hk : k < 32)
    (f : Frame) : (paintFrame addr P).take k ≠ f.bytes := by
  intro he
  have hlen : k = f.data.length + 4 := by simpa [Frame.bytes, hk.le] using congrArg List.length he
  refine paintFrame_getD_ne_terminator addr hP (c := f.data.length) (by omega) ?_
  calc (paintFrame addr P).getD (3 + f.data.length) 0
      = ((paintFrame addr P).take k).getD (3 + f.data.length) 0 := by
        rw [List.getD, List.getD, List.getElem?_take_of_lt (by omega)]
    _ = 0x8F := by rw [he, bytes_getD_terminator]

/-- Settles O43: a proper prefix decodes to no frame, and a cut write is not tried as one. -/
theorem cutPaintFramesAreStray : Obligations.CutPaintFramesAreStray := by
  intro addr P k s x xs hP _ hcut hx
  obtain ⟨-, stray⟩ := bytesThatAreNoFrameAreStray
  refine stray _ x xs s ?_ hx
  rcases hcut with ⟨hwhole, hk⟩ | ⟨hfailed, -⟩
  · exact .inl ⟨hwhole, decode_frame_error (paintFrame_take_ne_bytes addr hP hk)⟩
  · exact .inr hfailed

/-! ### The blank paint of OPEN (R123, R192) -/

theorem settled_blank (addr : Byte) : (blank addr).settled = true :=
  (settled_iff _).mpr ⟨rfl, rfl, by simp [blank]⟩

/-- R123, R146: a blank frame asks for no shown dot. -/
theorem asks_blank (addr : Byte) {k c : Nat} (hk : k < 7) (hc : c < 28) : (blank addr).asks k c = some false := by
  rw [asks_settled (settled_blank addr) hk hc, blank, List.getD_replicate _ hc]
  exact congrArg some BitVec.getLsbD_zero

/-- R56, R144: the state after a step with a frame first on the link. -/
theorem step_receiveFrame {s : State} {f : Frame} {xs : List Sent} (hx : s.transit = .whole f.bytes :: xs) :
    step s = .next (receiveFrame f { s with transit := xs }) :=
  (step_frame hx (decode_frame_bytes f)).trans (exec_frameInstr f _)

/-- R192: the blank frames ask a panel that accepts one of their addresses to hide every dot. -/
theorem asked_hear_blanks {top bottom : Byte} {p : Panel} (hp : p.accepts top = true ∨ p.accepts bottom = true)
    (hs : ∀ h ∈ p.heard, h.isStray = false) {k c : Nat} (hk : k < 7) (hc : c < 28) :
    ((p.hear (blank top)).hear (blank bottom)).asked k c = some false := by
  have htop := clear_of_settled (settled_blank top)
  have hbottom := clear_of_settled (settled_blank bottom)
  cases hb : p.accepts bottom with
  | true => rw [asked_hear hbottom (by rwa [hear_accepts]) (strayFree_hear htop hs), asks_blank bottom hk hc]
  | false =>
    have ht : p.accepts top = true := hp.resolve_right (by simp [hb])
    rw [hear_rejected _ _ hbottom (by rwa [hear_accepts]), asked_hear htop ht hs, asks_blank top hk hc]

/-- R120, R123: a successful OPEN has its operands in the addresses and its two blank frames on the link. -/
theorem exec_openLink_sendsBlanks (top bottom : Byte) {s : State} {ps : List PortAnswer} {as : List LinkAnswer}
    (hl : s.linkState = .closed) (hp : s.portAnswers = .ok :: ps) (ha : s.linkAnswers = .done :: .done :: as)
    (hx : s.transit = []) :
    ∃ t, exec (.openLink top bottom) s = .next t ∧ t.topAddr = top ∧ t.bottomAddr = bottom ∧ t.panels = s.panels ∧
      t.transit = [.whole (blank top).bytes, .whole (blank bottom).bytes] := by
  have hrun := runWrites_frames_done_done (length_blankFrame top) (length_blankFrame bottom) .releaseLink
    (s := s.portOpened top bottom ps) ha
  rw [exec_openLink_ok top bottom hl hp, hrun]
  exact ⟨_, rfl, rfl, rfl, rfl, congrArg (· ++ _) hx⟩

/-- Settles O48: OPEN writes its operands to the addresses and sends the two blank frames, and the next two steps are their
receptions, which keep the addresses. -/
theorem openBlanksTheAcceptingPanels : Obligations.OpenBlanksTheAcceptingPanels := by
  intro top bottom s ps as hl hp ha hx
  obtain ⟨t, ht, rfl, rfl, hpanels, htransit⟩ := exec_openLink_sendsBlanks top bottom hl hp ha hx
  refine ⟨t, _, _, ht, step_receiveFrame htransit, step_receiveFrame rfl, rfl, rfl, rfl, ?panels⟩
  simp only [receiveFrame_panels, receiveFrame_topAddr, receiveFrame_bottomAddr, hpanels, List.map_map,
    List.forall₂_map_right_iff, List.forall₂_same, Function.comp_apply]
  refine fun p _ => ⟨fun hnotTop hnotBottom => ?neither, fun hp hs k hk c hc => asked_hear_blanks hp hs hk hc⟩
  case neither =>
    rw [hear_rejected _ p (clear_of_settled (settled_blank t.topAddr)) hnotTop,
      hear_rejected _ p (clear_of_settled (settled_blank t.bottomAddr)) hnotBottom]

/-! ### A dual paint whose second write fails (R105, R200) -/

/-- R144: what a frame whose data bytes have bit 7 clear adds to a panel's log. -/
theorem heard_hear_of_clear {f : Frame} (hf : f.clear = true) (p : Panel) :
    (p.hear f).heard = p.heard ++ if p.accepts f.addr then [.frame f] else [] := by
  cases hp : p.accepts f.addr with
  | true => rw [hear_accepted f p hf hp]; rfl
  | false => rw [hear_rejected f p hf hp]; exact (List.append_nil _).symm

/-- R105: the top frame is on the link whole, and of the bottom frame what the failed write emitted. -/
theorem exec_paintDual_secondFails (top bottom : Byte) {P : PixelOperand} {s : State} {k : Nat} {as : List LinkAnswer}
    (hl : s.linkState = .opened) (hP : IsBuffer P 14 28) (ha : s.linkAnswers = .done :: .fail k :: as)
    (hx : s.transit = []) :
    ∃ t, exec (.paintDual top bottom P) s = .next t ∧ t.status = .io ∧ t.panels = s.panels ∧
      t.transit = .whole (panelFrame top (splitDual P).1).bytes ::
        if k = 0 then [] else [.cut ((paintFrame bottom (splitDual P).2).take k)] := by
  have hrun := runWrites_frames_done_fail (length_paintFrame top (splitDual P).1)
    (length_paintFrame bottom (splitDual P).2) .keepLink ha
  rw [exec_paintDual, paint_buffer _ hl hP, dualFrames, hrun, hx]
  refine ⟨_, rfl, rfl, rfl, ?transit⟩
  case transit =>
    rw [endCommand_transit, release_transit]
    split_ifs <;> rfl

/-- Settles O49: the first step after the command is the reception of the top frame, and the second that of the bytes of
the failed write, where there are any. -/
theorem failedSecondWriteLeavesTheBottomStale : Obligations.FailedSecondWriteLeavesTheBottomStale := by
  intro top bottom P s k as hl hP ha hx
  obtain ⟨t, ht, hstatus, hpanels, htransit⟩ := exec_paintDual_secondFails top bottom hl hP ha hx
  obtain ⟨u, hu, hutransit, hupanels⟩ := step_receives htransit
  obtain ⟨htopHalf, -⟩ := isBuffer_splitDual hP
  have hheard := heard_hear_of_clear (clear_of_settled (settled_panelFrame top htopHalf))
  rw [hpanels] at hupanels
  by_cases hk : k = 0
  case pos =>
    refine ⟨t, u, u, ht, hstatus, hu, fun _ => rfl, fun h => absurd hk h, hutransit.trans (if_pos hk), ?nothing⟩
    rw [hupanels, List.forall₂_map_right_iff, List.forall₂_same]
    exact fun p _ => ⟨hear_switches _ p, by rw [hheard, if_pos hk, List.append_nil]; rfl⟩
  case neg =>
    rw [if_neg hk] at hutransit
    refine ⟨t, u, _, ht, hstatus, hu, fun h => absurd h hk, fun _ => step_cut hutransit, rfl, ?stray⟩
    rw [receiveStray_panels, hupanels, List.map_map, List.forall₂_map_right_iff, List.forall₂_same]
    refine fun p _ => ⟨hear_switches _ p, ?_⟩
    rw [if_neg hk, Function.comp_apply, Panel.hearStray, hheard]
    rfl

end Sys2Proof.Machine
end
